-- ==== Sys2Proof/Word.lean ====
section
/-! DEFINITION. The word types of the part: 16-bit words of sectors, pages and buses (12_formats.md), 32-bit
stamps of the uptime count (00_scope.md, Time), and the 256-word image of a map or label sector (R46, R171). -/

namespace Sys2Proof

/-- A 16-bit word. -/
abbrev Word := BitVec 16

/-- A value of the uptime count. -/
abbrev Stamp := BitVec 32

/-- The 256 words of a map or label sector. -/
abbrev Image := Vector Word 256

/-- The image of 256 zero words (R46). -/
def Image.zero : Image := Vector.replicate 256 0#16

end Sys2Proof
end

