-- ==== Sys2Proof/Config.lean ====
section
/-! DEFINITION. The free values: what the spec leaves open and the model does not choose. Each is opaque, so that
no proof can see its value; `n` is the counter `State.free`, which the step advances. -/

namespace Sys2Proof

/-- Which of several expiries that fall due at one tick, or of several interlock entries that age out at one
comparison, is taken next: the order is the world's (R40, R77, R79, R155). Log 3, log 31. -/
opaque Config.pick : Nat → Nat

/-- Whether view B takes a map activation before view A, where both make requests at it (R38, R126). Log 22. -/
opaque Config.viewBFirst : Nat → Bool

/-- The failure number of E20, less 1, where no line of R168's table fits: between the two sector writes of a
commit, or after a write's check word. Log 23. -/
opaque Config.commitFailure : Nat → Fin 5

/-- The sector of E20 in the same case: 0 absent, 1 the map sector, 2 the label sector (R168). Log 23. -/
opaque Config.commitSector : Nat → Fin 3

/-- The cylinder recorded with a last outcome of DRIVE FAULT, 408 standing for none (05 5.1, R96). Log 24. -/
opaque Config.driveFaultCylinder : Nat → Fin 409

/-- The header words a gate had carried when the part's own clock cut it (R13, R143). Log 4. -/
opaque Config.carriedHeader : Nat → List Word

/-- Whether the data sync mark had passed in that gate. Log 4. -/
opaque Config.carriedStarted : Nat → Bool

/-- The data words that gate had carried. Log 4. -/
opaque Config.carriedData : Nat → List Word

/-- Whether the check word's time had ended in that gate. Log 4. -/
opaque Config.carriedCheck : Nat → Bool

/-- Bit 14 of word 0 of a page 8 record whose address is a cylinder without a volume (R102, R156, R173). Log 25. -/
opaque Config.cylinderOnlyBit : Bool

/-- Bit 15, the volume, of word 1 of that record. Log 25. -/
opaque Config.cylinderOnlyVolume : Bool

/-- The cause, as its code in R174, of a write that a restart cuts before its check word (R14, R103). Log 19. -/
opaque Config.restartTear : Nat → Fin 5

end Sys2Proof
end

