-- ==== Sys2Proof/Syntax.lean ====
section
/-! DEFINITION. The commands of the 7420: one constructor for each row of spec/opcode_table.json, with the operands
the row's rule speaks of, and the types of those operands. -/

namespace Sys2Proof

/-- A channel port (00_scope.md, Channels). -/
inductive Chan where
  | a | b
  deriving DecidableEq, Repr

/-- A volume: F fixed, R removable (00_scope.md). -/
inductive Vol where
  | f | r
  deriving DecidableEq, Repr

/-- A head of a volume. -/
inductive Head where
  | h0 | h1
  deriving DecidableEq, Repr

/-- A selected volume and head (02 2.1). -/
structure Sel where
  vol  : Vol
  head : Head
  deriving DecidableEq, Repr

/-- A gate line (R31). -/
inductive GateLine where
  | read | write
  deriving DecidableEq, Repr

/-- The kinds of sector start (R6): INDEX with SECTOR, SECTOR alone, INDEX alone. -/
inductive StartKind where
  | indexSector | sector | index
  deriving DecidableEq, Repr

/-- What the data lines of the one gate up at the drive port have carried since its rise (R7 to R10): the header
words, whether the data sync mark has passed, the data words, and whether the gate was still up at the end of the
word time of the data check word. Log 4. -/
structure Carried where
  header       : List Word
  dataStarted  : Bool
  data         : List Word
  checkReached : Bool
  deriving DecidableEq, Repr

/-- Nothing carried. -/
def Carried.nothing : Carried := ⟨[], false, [], false⟩

/-- The input lines of a channel port. -/
structure PortLines where
  strobe    : Bool
  readGate  : Bool
  writeGate : Bool
  present   : Bool
  deriving DecidableEq, Repr

/-- The input lines of the drive port (R15), and ORDER ACKNOWLEDGE (R13). -/
structure DriveLines where
  ready          : Bool
  onCylinder     : Bool
  seekError      : Bool
  fault          : Bool
  writeProtected : Bool
  acknowledge    : Bool
  deriving DecidableEq, Repr

/-- Every input line of the part. -/
structure InputLines where
  portA   : PortLines
  portB   : PortLines
  drive   : DriveLines
  warning : Bool
  deriving DecidableEq, Repr

/-- Every input line low. -/
def InputLines.low : InputLines :=
  ⟨⟨false, false, false, false⟩, ⟨false, false, false, false⟩, ⟨false, false, false, false, false, false⟩, false⟩

/-- A character received on the maintenance line, with whether its stop bit was there (R161). -/
structure RxChar where
  code    : BitVec 8
  stopBit : Bool
  deriving DecidableEq, Repr

/-- The three header words of a sector (R169). -/
structure HeaderWords where
  w1 : Word
  w2 : Word
  w3 : Word
  deriving DecidableEq, Repr

/-- The commands, one for each row of the table. -/
inductive Instr where
  /-- POWER_ON (R141): the supply is applied, with the input lines at these levels. -/
  | powerOn (lines : InputLines)
  /-- CYLINDER_ORDER (R24): ORDER BUS bits 9..0; what an active gate has carried. -/
  | cylinderOrder (c : Chan) (value : BitVec 10) (w : Carried)
  /-- HEAD_ORDER (R25): ORDER BUS; what an active gate has carried. -/
  | headOrder (c : Chan) (bus : BitVec 10) (w : Carried)
  /-- RECALIBRATE (R26). -/
  | recalibrate (c : Chan)
  /-- FAULT_CLEAR (R27). -/
  | faultClear (c : Chan)
  /-- REPORT (R28). -/
  | report (c : Chan)
  /-- UNKNOWN_FUNCTION_CODE (R4). -/
  | unknownFunctionCode (c : Chan) (code : BitVec 10)
  /-- ORDER_NAMING_NO_KIND (R4). -/
  | orderNamingNoKind (c : Chan) (bus : BitVec 10)
  /-- ORDER_STROBE_FALL (R2). -/
  | orderStrobeFall (c : Chan)
  /-- GATE_ARRIVAL (R32): a rise of a gate line, so many microseconds after the most recent sector start. -/
  | gateArrival (c : Chan) (line : GateLine) (sinceStart : Nat)
  /-- GATE_DROP (R109). -/
  | gateDrop (c : Chan) (w : Carried)
  /-- PRESENCE_LOST (R39). -/
  | presenceLost (c : Chan) (w : Carried)
  /-- ATTACH (R40). -/
  | attach (c : Chan)
  /-- WRITE_CLOCK_LOST (R111). -/
  | writeClockLost (w : Carried)
  /-- SUPPLY_WRITE_CUT_AT_CHECK_WORD (R112). -/
  | supplyWriteCutAtCheckWord (w : Carried)
  /-- SECTOR_START (R142). -/
  | sectorStart (kind : StartKind) (w : Carried)
  /-- INTERNAL_WRITE_GATE_RISE (R63). -/
  | internalWriteGateRise
  /-- CHECK_ERROR (R11). -/
  | checkError
  /-- INTERNAL_READ_END (R58): whether the read was full (R10), the header words and the data words it gave. -/
  | internalReadEnd (full : Bool) (header : HeaderWords) (data : Image)
  /-- INTERNAL_WRITE_END (R63). -/
  | internalWriteEnd
  /-- DRIVE_ORDER_ACKNOWLEDGE (R13). -/
  | driveOrderAcknowledge
  /-- DRIVE_ACKNOWLEDGE_FALL (R13). -/
  | driveAcknowledgeFall
  /-- ORDER_WITHDRAWN (R13). -/
  | orderWithdrawn (w : Carried)
  /-- ON_CYLINDER_RISE (R93). -/
  | onCylinderRise
  /-- SEEK_ERROR_RISE (R93). -/
  | seekErrorRise (w : Carried)
  /-- DRIVE_FAULT_LINE (R15). -/
  | driveFaultLine (w : Carried)
  /-- ON_CYLINDER_FALL (R98). -/
  | onCylinderFall (w : Carried)
  /-- CLEARING_STEP_SUCCEEDED (R94). -/
  | clearingStepSucceeded
  /-- SEEK_NO_ANSWER (R93). -/
  | seekNoAnswer
  /-- CLEARING_TIME_LIMIT (R94). -/
  | clearingTimeLimit
  /-- RECALIBRATION_TIME_LIMIT (R95). -/
  | recalibrationTimeLimit
  /-- READY_RISE (R146). -/
  | readyRise
  /-- READY_FALL (R144). -/
  | readyFall (w : Carried)
  /-- READY_ACCEPTED (R144). -/
  | readyAccepted
  /-- ROTATION_LOST (R143). -/
  | rotationLost (w : Carried)
  /-- SUPPLY_WARNING (R145). -/
  | supplyWarning (w : Carried)
  /-- SUPPLY_CLEAR_ACCEPTED (R151). -/
  | supplyClearAccepted
  /-- RELEASE_INTERVAL (R77). -/
  | releaseInterval
  /-- BUDGET_EXPIRY (R79). -/
  | budgetExpiry
  /-- INTERLOCK_CHAIN_END (R121). -/
  | interlockChainEnd (c : Chan)
  /-- INTERLOCK_AGED_OUT (R122): the entry on this volume and cylinder. -/
  | interlockAgedOut (v : Vol) (cyl : Nat)
  /-- P_COMMAND (R163): the two decimal digits. -/
  | pCommand (page : Nat)
  /-- R_COMMAND (R163): the index, and the characters of the frame as received (log 27; with none given the command is
  not well formed, as in the six frames after it). -/
  | rCommand (index : BitVec 8) (text : List (BitVec 8) := [])
  /-- R_UPTIME_LOW (R163): the characters of the frame as received. -/
  | rUptimeLow (text : List (BitVec 8) := [])
  /-- R_UPTIME_HIGH (R163): the characters of the frame as received. -/
  | rUptimeHigh (text : List (BitVec 8) := [])
  /-- W_ENABLE_WORD (R157): index, value, and the characters of the frame as received. -/
  | wEnableWord (index : BitVec 8) (value : Word) (text : List (BitVec 8) := [])
  /-- W_STAGED_IMAGE (R163): the same. -/
  | wStagedImage (index : BitVec 8) (value : Word) (text : List (BitVec 8) := [])
  /-- W_NOT_WRITABLE (R163): the same. -/
  | wNotWritable (index : BitVec 8) (value : Word) (text : List (BitVec 8) := [])
  /-- T_COMMAND (R159): the index, and the characters of the frame as received. -/
  | tCommand (index : BitVec 8) (text : List (BitVec 8) := [])
  /-- C_COMMAND (R166). -/
  | cCommand
  /-- U_COMMAND (R88). -/
  | uCommand
  /-- K_COMMAND (R116). -/
  | kCommand
  /-- I_COMMAND (R164). -/
  | iCommand
  /-- X_COMMAND (R165). -/
  | xCommand
  /-- MALFORMED_FRAME (R161): the characters received before the CR. -/
  | malformedFrame (chars : List RxChar)
  /-- REPLY_SENT (R161): what a gate up at a restart has carried; nothing where no words are given. -/
  | replySent (w : Carried := .nothing)
  /-- WRITE_PROTECTED_CHANGE (R15): the new level. -/
  | writeProtectedChange (level : Bool)
  /-- UNPASSED_GATE_DROP (R44): the line that dropped. -/
  | unpassedGateDrop (c : Chan) (line : GateLine)
  /-- PRESENT_RISE (R40). -/
  | presentRise (c : Chan)
  /-- SUPPLY_WARNING_INPUT_CLEARS (R145). -/
  | supplyWarningInputClears
  deriving DecidableEq, Repr

end Sys2Proof
end

