-- ==== Sys2Proof/Machine/State.lean ====
section
/-! DEFINITION. The state of the part: every item of the "What ... holds" tables of chapters 2 to 11, the lines of
the three cable ports, the queue of waiting commands and the counter of free values; the stops; the state after
reset. INVENTORY.md lists each field with its rule and its reset value. -/

namespace Sys2Proof.Machine

/-- One item for each channel. -/
structure Pair (α : Type) where
  a : α
  b : α
  deriving DecidableEq, Repr

/-! ## Channel views (02_channel_views.md 2.1) -/

/-- The eight view states, in the order of 02 2.1 (the codes of R173). -/
inductive ViewState where
  | detached | notReady | standby | requesting | deferred | positioned | transferring | faulted
  deriving DecidableEq, Repr

/-- The access classes (03 3.2, R171). -/
inductive ExtClass where
  | readWrite | readOnly | shared | mailbox
  deriving DecidableEq, Repr

/-- A target: a logical cylinder with its translation (02 2.1, R22). -/
structure Target where
  logical  : Nat
  physical : Nat
  cls      : ExtClass
  permit   : Bool
  deriving DecidableEq, Repr

/-- Why a view is FAULTED (02 2.1, R169). -/
inductive FaultCause where
  | none | protectedWrite | gateOverrun | orderDuringGate | formatRefused
  deriving DecidableEq, Repr

/-- The eight attention causes (R41). -/
inductive Cause where
  | mailboxNotice | cartridgeChanged | peerDetached | peerAttached | mapChanged | peerTornWrite | preempted | attached
  deriving DecidableEq, Repr

/-- An attention cause set (R41). -/
structure Causes where
  mailboxNotice    : Bool
  cartridgeChanged : Bool
  peerDetached     : Bool
  peerAttached     : Bool
  mapChanged       : Bool
  peerTornWrite    : Bool
  preempted        : Bool
  attached         : Bool
  deriving DecidableEq, Repr

/-- The empty cause set. -/
def Causes.empty : Causes := ⟨false, false, false, false, false, false, false, false⟩

/-- A channel view (02 2.1). -/
structure View where
  st        : ViewState
  sel       : Sel
  target    : Option Target
  seekError : Bool
  slotProt  : Bool
  fault     : FaultCause
  causes    : Causes
  wait      : Nat
  idle      : Nat
  debounce  : Nat
  deriving DecidableEq, Repr

/-- A view after power-on and restart (R18). -/
def View.initial : View :=
  { st := .detached, sel := ⟨.f, .h0⟩, target := none, seekError := false, slotProt := false, fault := .none,
    causes := .empty, wait := 0, idle := 0, debounce := 0 }

/-- A pulse relayed to a channel port (R1, R6, R11). -/
inductive Pulse where
  | start (kind : StartKind)
  | checkError
  deriving DecidableEq, Repr

/-- The lines of a channel port (R1): input levels as last seen, the gate now up at the port by the line that began
it (R31), and the outputs that are not computed from the view. -/
structure Port where
  strobe    : Bool
  readGate  : Bool
  writeGate : Bool
  present   : Bool
  gate      : Option GateLine
  ack       : Bool
  returnBus : Word
  pulse     : Option Pulse
  readData  : List Word
  deriving DecidableEq, Repr

/-- A port after power-on and restart, its input lines at these levels (R1). -/
def Port.initial (l : PortLines) : Port :=
  { strobe := l.strobe, readGate := l.readGate, writeGate := l.writeGate, present := l.present, gate := none,
    ack := false, returnBus := 0#16, pulse := none, readData := [] }

/-! ## Map Store (03_extent_map_and_address_translation.md 3.1) -/

/-- Map state (03 3.1). -/
inductive MapState where
  | valid | missing
  deriving DecidableEq, Repr

/-- Label state (03 3.1). -/
inductive LabelState where
  | valid | unlabelled | absent
  deriving DecidableEq, Repr

/-- The images a commit in flight is to write (R62). -/
structure CommitImages where
  map   : Image
  label : Option Image
  deriving DecidableEq, Repr

/-- Where the internal transfer in hand stands (R58, R59, R63): not begun; its HEAD order awaited; the start of
sector 0 awaited; its read gate up, with whether a CHECK ERROR came (R11); in the header window of sector 0 before
a write; its write gate up. -/
inductive Xfer where
  | none
  | headOrder (v : Vol)
  | awaitSector (v : Vol)
  | reading (v : Vol) (checkError : Bool)
  | window (v : Vol)
  | writing (v : Vol)
  deriving DecidableEq, Repr

/-- The Map Store. The extent tables, the parameters, the revision count and the serial number are decoded from the
images where they are read (03 3.1). -/
structure MapStore where
  mapState    : MapState
  labelState  : LabelState
  activeMap   : Image
  heldLabel   : Option Image
  stagedMap   : Image
  stagedLabel : Image
  commit      : Option CommitImages
  xfer        : Xfer
  deriving DecidableEq, Repr

/-- The Map Store after power-on and restart (R46). -/
def MapStore.initial : MapStore :=
  { mapState := .missing, labelState := .absent, activeMap := .zero, heldLabel := none, stagedMap := .zero,
    stagedLabel := .zero, commit := none, xfer := .none }

/-! ## Actuator Arbiter (04_actuator_arbitration.md 4.1) -/

/-- Whether a claim began at a decision or continues a grant (04 4.1). -/
inductive ClaimKind where
  | fresh | continuing
  deriving DecidableEq, Repr

/-- The arbiter state (04 4.1). -/
inductive ArbState where
  | free
  | claimed (c : Chan) (k : ClaimKind)
  | owned (c : Chan)
  | internal
  | halted
  deriving DecidableEq, Repr

/-- The kinds of internal request, in the order of 04 4.1. -/
inductive InternalKind where
  | labelRead | mapRead | mapWrite
  deriving DecidableEq, Repr

/-- A volume and physical cylinder: a channel's request record (R65), a deferred request (07 7.1). -/
structure Place where
  vol : Vol
  cyl : Nat
  deriving DecidableEq, Repr

/-- The arbiter. -/
structure Arbiter where
  st             : ArbState
  request        : Pair (Option Place)
  awaited        : Option Nat
  stamp          : Option Stamp
  held           : Nat
  budget         : Nat
  clock          : Nat
  releasePending : Bool
  usage          : Pair Nat
  gLast          : Chan
  queue          : List InternalKind
  deriving DecidableEq, Repr

/-- The arbiter after power-on and restart (R64). -/
def Arbiter.initial : Arbiter :=
  { st := .free, request := ⟨none, none⟩, awaited := none, stamp := none, held := 0, budget := 0, clock := 0,
    releasePending := false, usage := ⟨0, 0⟩, gLast := .a, queue := [] }

/-! ## Positioner Control (05_positioning_and_recovery.md 5.1) -/

/-- The positioner state (05 5.1). -/
inductive PosState where
  | idle | seeking | clearing | recalibrating | halted
  deriving DecidableEq, Repr

/-- The request in hand (05 5.1). -/
inductive PosRequest where
  | seek (cyl : Nat)
  | calibration
  deriving DecidableEq, Repr

/-- Where a clearing or recalibration step stands, in the order of R174 (E12). -/
inductive Stage where
  | preparation | recovery | closing | calibration
  deriving DecidableEq, Repr

/-- The outcomes shown as the last outcome (05 5.1). -/
inductive SeekOutcome where
  | reached | seekError | noAnswer | fault | contradictory | failedClaim | calibrated | driveFault
  deriving DecidableEq, Repr

/-- A last outcome with the cylinder concerned (05 5.1). -/
structure LastOutcome where
  outcome : SeekOutcome
  cyl     : Option Nat
  deriving DecidableEq, Repr

/-- Positioner Control. `ticks` counts from the acknowledgement of the present step's order (R93 to R95). -/
structure Positioner where
  cyl     : Option Nat
  lastSel : Option Sel
  st      : PosState
  request : Option PosRequest
  held    : Option Nat
  retry   : Bool
  last    : Option LastOutcome
  stage   : Stage
  ticks   : Option Nat
  deriving DecidableEq, Repr

/-- Positioner Control after power-on and restart (R90). -/
def Positioner.initial : Positioner :=
  { cyl := none, lastSel := none, st := .halted, request := none, held := none, retry := false, last := none,
    stage := .preparation, ticks := none }

/-! ## The drive port (01_the_drive_cable.md 1.5) -/

/-- Who had a HEAD order offered (R99). -/
inductive HeadIssuer where
  | relay (c : Chan)
  | mapStore
  deriving DecidableEq, Repr

/-- The orders issued at the drive port (R13). -/
inductive DriveOrder where
  | cylinder (cyl : Nat)
  | head (sel : Sel) (issuer : HeadIssuer)
  | faultClear
  | recalibrate
  deriving DecidableEq, Repr

/-- The drive port: the order offered while ORDER STROBE is up, the orders that wait, the gates and data toward the
drive, the protection marks, and the drive's own lines as last seen. -/
structure DrivePort where
  present        : Bool
  offered        : Option DriveOrder
  strobeTicks    : Nat
  waiting        : List DriveOrder
  readGate       : Bool
  writeGate      : Bool
  writeData      : List Word
  protF          : Bool
  protR          : Bool
  ready          : Bool
  onCylinder     : Bool
  seekError      : Bool
  fault          : Bool
  writeProtected : Bool
  ack            : Bool
  deriving DecidableEq, Repr

/-- The drive port after power-on and restart, the drive's lines at these levels (R14, R15). -/
def DrivePort.initial (l : DriveLines) : DrivePort :=
  { present := true, offered := none, strobeTicks := 0, waiting := [], readGate := false, writeGate := false,
    writeData := [], protF := false, protR := false, ready := l.ready, onCylinder := l.onCylinder,
    seekError := l.seekError, fault := l.fault, writeProtected := l.writeProtected, ack := l.acknowledge }

/-! ## Gate and Relay Unit (06_gates_data_relay_and_torn_sectors.md 6.1) -/

/-- A physical address (00_scope.md). -/
structure Addr where
  vol    : Vol
  cyl    : Nat
  head   : Head
  sector : Fin 24
  deriving DecidableEq, Repr

/-- The kinds of gate (06 6.1, the codes of R174). -/
inductive GateKind where
  | read | dataWrite | formatWrite
  deriving DecidableEq, Repr

/-- The gate record (06 6.1). `inWindow` says whether the gate rose inside the header window (R7, R8, R12). -/
structure GateRecord where
  chan        : Chan
  kind        : GateKind
  inWindow    : Bool
  addr        : Addr
  cls         : ExtClass
  dataStarted : Bool
  words       : Nat
  checkWord   : Bool
  firstWord   : Option Word
  checkError  : Bool
  deriving DecidableEq, Repr

/-- The writer of a torn sector (R114). -/
inductive Writer where
  | chan (c : Chan)
  | internal
  deriving DecidableEq, Repr

/-- The causes of tearing (R114). -/
inductive TearCause where
  | shortWrite | gateOverrun | presenceLost | driveDropped | driveFault
  deriving DecidableEq, Repr

/-- An entry of the torn sector list (R114). -/
structure TornEntry where
  addr   : Addr
  writer : Writer
  cause  : TearCause
  stamp  : Stamp
  deriving DecidableEq, Repr

/-- The Gate and Relay Unit. -/
structure Relay where
  headPending : Option Sel
  gate        : Option GateRecord
  torn        : List TornEntry
  deriving DecidableEq, Repr

/-- The relay after power-on and restart (R103). -/
def Relay.initial : Relay := { headPending := none, gate := none, torn := [] }

/-! ## Interlock Unit (07_shared_cylinder_interlocks.md 7.1) -/

/-- An entry of the interlock list (07 7.1). -/
structure Entry where
  holder  : Chan
  vol     : Vol
  cyl     : Nat
  first   : Stamp
  last    : Stamp
  sectors : Nat
  deriving DecidableEq, Repr

/-- The Interlock Unit. -/
structure Interlock where
  list     : List Entry
  chain    : Pair (Option Stamp)
  deferred : Pair (Option Place)
  deriving DecidableEq, Repr

/-- The Interlock Unit after power-on and restart (R118). -/
def Interlock.initial : Interlock := { list := [], chain := ⟨none, none⟩, deferred := ⟨none, none⟩ }

/-! ## Mailbox Unit (08_the_mailbox_track.md 8.1) -/

/-- A posting record (08 8.1). -/
structure Posting where
  sender : Chan
  seq    : BitVec 8
  gap    : Bool
  stamp  : Stamp
  deriving DecidableEq, Repr

/-- The Mailbox Unit: a slot is POSTED exactly when it has a posting record. -/
structure Mailbox where
  slots    : Vector (Option Posting) 24
  notice   : Pair (List (Fin 24))
  expected : Pair (Option (BitVec 8))
  deriving DecidableEq, Repr

/-- The Mailbox Unit after power-on and restart, and after a clearing (R130, R139). -/
def Mailbox.initial : Mailbox :=
  { slots := Vector.replicate 24 none, notice := ⟨[], []⟩, expected := ⟨none, none⟩ }

/-! ## Drive Watch (09_spindle_cartridge_and_supply.md 9.1) -/

/-- The Drive Watch state (09 9.1). -/
inductive WatchState where
  | spunDown | spinningUp | calibrating | readingMap | readingLabel | running | supplyHold | driveFault
  deriving DecidableEq, Repr

/-- Drive Watch. `labelReadDone`: a label read has had an outcome since power-on or restart (R149, log 13).
`startUp`, `spinUp`: the path to RUNNING is a start-up, a spin-up (R61, log 29). -/
structure Watch where
  st            : WatchState
  readyAccepted : Bool
  readyDebounce : Nat
  warnAccepted  : Bool
  clearDebounce : Nat
  sector        : Fin 24
  sync          : Bool
  gap           : Nat
  mapOwed       : Bool
  labelOwed     : Bool
  priorValid    : Bool
  writeEndWait  : Bool
  spinOwed      : Bool
  labelReadDone : Bool
  startUp       : Bool
  spinUp        : Bool
  deriving DecidableEq, Repr

/-- Drive Watch after power-on and restart, from the READY line and the supply warning input (R141). -/
def Watch.initial (ready warning : Bool) : Watch :=
  { st := if warning then .supplyHold else if ready then .spinningUp else .spunDown,
    readyAccepted := false, readyDebounce := 0, warnAccepted := warning, clearDebounce := 0, sector := 0,
    sync := false, gap := 0, mapOwed := true, labelOwed := true, priorValid := false, writeEndWait := false,
    spinOwed := warning, labelReadDone := false, startUp := true, spinUp := false }

/-! ## Event Unit (10_event_flags_and_the_alarm_contact.md) -/

/-- The event kinds split by channel, in the order of their bits in a per-channel flag word (R173). -/
inductive ChanEvent where
  | unmappedSeek | protectedWrite | formatRefused | gateOverrun | orderDuringGate | gateWithoutPosition
  | tornSector | interlockYield | interlockOverflow | budgetPreemption | waitLimitGrant | mailboxSequenceGap
  | mailboxUnrouted | presenceLost
  deriving DecidableEq, Repr

/-- The event kinds with a single flag, in the order of their bits in the single flag word (R173). -/
inductive SoleEvent where
  | tornListOverflow | seekTimeout | seekError | positionerFault | recalibrationFailed | driveFaultLine
  | rotationFault | rotationLost | cartridgeChanged | labelInvalid | mapInvalid | mapCommitted
  | mapCommitFailed | interlockAgedOut | supplyWarning
  deriving DecidableEq, Repr

/-- The parts of a physical address that an occurrence carries (R156). -/
structure PartAddr where
  vol    : Option Vol
  cyl    : Option Nat
  head   : Option Head
  sector : Option (Fin 24)
  deriving DecidableEq, Repr

/-- No address. -/
def PartAddr.absent : PartAddr := ⟨none, none, none, none⟩

/-- A first-occurrence record (R156). -/
structure FirstRecord where
  kind   : Nat
  chan   : Option Chan
  addr   : PartAddr
  detail : Word
  stamp  : Stamp
  deriving DecidableEq, Repr

/-- Enables of every flag, as the named bits of the three words of page 7 (R157, R173). -/
structure Enables where
  a    : BitVec 14
  b    : BitVec 14
  sole : BitVec 15
  deriving DecidableEq, Repr

/-- The Event Unit. A flag is set exactly when its record is held (R156), so the records are the flags' one home. -/
structure EventUnit where
  recordsA     : Vector (Option FirstRecord) 14
  recordsB     : Vector (Option FirstRecord) 14
  recordsSole  : Vector (Option FirstRecord) 15
  recordEnable : Enables
  alarmEnable  : Enables
  contact      : Bool
  deriving DecidableEq, Repr

/-- The Event Unit at power-on, before any block raises an event (R160, R173). -/
def EventUnit.initial : EventUnit :=
  { recordsA := Vector.replicate 14 none, recordsB := Vector.replicate 14 none,
    recordsSole := Vector.replicate 15 none,
    recordEnable := ⟨0x3FFF#14, 0x3FFF#14, 0x7FFF#15⟩, alarmEnable := ⟨0#14, 0#14, 0x14F9#15⟩, contact := false }

/-! ## Maintenance Line Interface (11_maintenance_line.md 11.1) -/

/-- The replies of the maintenance line (R173). -/
inductive Reply where
  /-- `OK` -/
  | ok
  /-- `= hhhh` -/
  | value (w : Word)
  /-- `?F` -/
  | badFrame
  /-- `?P` -/
  | badPage
  /-- `?I` -/
  | badIndex
  /-- `?R` -/
  | readOnly
  /-- `?B` -/
  | busy
  /-- `?N` -/
  | notRunning
  /-- `?V n` -/
  | invalid (n : Nat)
  deriving DecidableEq, Repr

/-- The Maintenance Line Interface, with the reply being sent and whether a restart follows it (R165). The
commit-in-flight mark is `MapStore.commit`. -/
structure Line where
  frame        : List (BitVec 8)
  frameError   : Bool
  page         : Nat
  latch        : Option Word
  restartCount : Word
  reply        : Option Reply
  restartDue   : Bool
  deriving DecidableEq, Repr

/-- The interface after power-on (restart count 0) and restart (11 11.1). -/
def Line.initial (restarts : Word) : Line :=
  { frame := [], frameError := false, page := 0, latch := none, restartCount := restarts, reply := none,
    restartDue := false }

/-! ## The whole part -/

/-- The state of the part. -/
structure State where
  views   : Pair View
  ports   : Pair Port
  map     : MapStore
  arb     : Arbiter
  pos     : Positioner
  drive   : DrivePort
  relay   : Relay
  ilock   : Interlock
  mbox    : Mailbox
  watch   : Watch
  ev      : EventUnit
  line    : Line
  /-- The supply warning input, asserted or clear (R17). -/
  warning : Bool
  uptime  : Stamp
  /-- How many free values have been drawn: the model's own field. -/
  free    : Nat
  /-- The commands waiting, first in, first out. -/
  pending : List Instr
  deriving DecidableEq, Repr

/-- The reasons a step can stop the part: none, since every command of the table has an effect or is answered
(INVENTORY.md, Faults). -/
inductive Fault where
  deriving DecidableEq, Repr

/-- The reasons a command has no meaning in the model. -/
inductive Refusal where
  /-- Raised by `exec` for a command that is not modelled yet; safe. No arm raises it. -/
  | notModelled (mnemonic : String)
  deriving DecidableEq, Repr

/-- Every block at its values of power-on and restart, with these input lines; the Event Unit, the uptime count and
the restart count as given (R18, R46, R64, R90, R103, R118, R130, R141, R160, R165). -/
def State.initialised (lines : InputLines) (ev : EventUnit) (uptime : Stamp) (restarts : Word) (free : Nat)
    (pending : List Instr) : State :=
  { views := ⟨.initial, .initial⟩, ports := ⟨.initial lines.portA, .initial lines.portB⟩, map := .initial,
    arb := .initial, pos := .initial, drive := .initial lines.drive, relay := .initial, ilock := .initial,
    mbox := .initial, watch := .initial lines.drive.ready lines.warning, ev := ev, line := .initial restarts,
    warning := lines.warning, uptime := uptime, free := free, pending := pending }

/-- The first-occurrence record of E29 that Drive Watch raises at power-on (R141, R160, R174), stamped at uptime 0 (log
47). -/
def FirstRecord.powerOn : FirstRecord :=
  { kind := 29, chan := none, addr := .absent, detail := 8#16, stamp := 0#32 }

/-- The Event Unit once Drive Watch has raised E29 at power-on (R160): the contact stays open. -/
def EventUnit.poweredOn : EventUnit :=
  { EventUnit.initial with recordsSole := EventUnit.initial.recordsSole.set 14 (some .powerOn) }

/-- The part right after power-on with every input line low (log 6), nothing waiting. -/
def State.reset : State := State.initialised .low .poweredOn 0#32 0#16 0 []

end Sys2Proof.Machine
end

