-- ==== Sys2Proof/Machine/Operands.lean ====
section
/-! DEFINITION. The operand forms: channels and pairs, the values on ORDER BUS and the header words (R169, R170), what
a gate has carried (R7 to R10), the routing word (R132, R171), maintenance frames and replies (R161, R173). -/

namespace Sys2Proof.Machine

/-- The other channel (00_scope.md, Channels). -/
def peer : Chan → Chan
  | .a => .b
  | .b => .a

/-- The item of a channel. -/
def Pair.get {α : Type} (p : Pair α) : Chan → α
  | .a => p.a
  | .b => p.b

/-- The pair with a channel's item replaced. -/
def Pair.set {α : Type} (p : Pair α) (c : Chan) (x : α) : Pair α :=
  match c with
  | .a => { p with a := x }
  | .b => { p with b := x }

/-- The ticks from a stamp to the present uptime, as the difference of two uptime counts (00_scope.md, Time). -/
def elapsed (now stamp : Stamp) : Nat := (now - stamp).toNat

/-- A count that rises by one and stops at its limit. -/
def countUp (limit n : Nat) : Nat := if n < limit then n + 1 else limit

/-! ## Orders and header words (R169) -/

/-- The volume and head of a HEAD order: bit 1 the volume, bit 0 the head, the rest ignored (R169, R170). -/
def headSel (bus : BitVec 10) : Sel :=
  { vol := if bus.getLsbD 1 then .r else .f, head := if bus.getLsbD 0 then .h1 else .h0 }

/-- The command of a CONTROL order's function code: 1 FAULT CLEAR, 2 RECALIBRATE, 3 REPORT, any other unknown (R4,
R169). -/
def controlOnBus (c : Chan) (code : BitVec 10) : Instr :=
  if code = 1#10 then .faultClear c
  else if code = 2#10 then .recalibrate c
  else if code = 3#10 then .report c
  else .unknownFunctionCode c code

/-- The command that a rise of ORDER STROBE is, by what stands on ORDER SELECT and ORDER BUS at that moment: 0
CYLINDER, 1 HEAD, 2 CONTROL, 3 no kind (R2, R4, R169); `w` is what an active gate has carried. -/
def orderOnLines (c : Chan) (select : BitVec 2) (bus : BitVec 10) (w : Carried) : Instr :=
  if select = 0#2 then .cylinderOrder c bus w
  else if select = 1#2 then .headOrder c bus w
  else if select = 2#2 then controlOnBus c bus
  else .orderNamingNoKind c bus

/-- The function codes of CONTROL orders that name a function (R4, R169). -/
def knownFunction (code : BitVec 10) : Bool := code == 1#10 || code == 2#10 || code == 3#10

/-- Bit 15 of header word 2 (R169). -/
def volBit : Vol → Nat
  | .f => 0
  | .r => 1

/-- Bit 14 of header word 2 (R169). -/
def headBit : Head → Nat
  | .h0 => 0
  | .h1 => 1

/-- ORDER SELECT at the drive port while an order is offered there (R13, R169). -/
def DriveOrder.select : DriveOrder → BitVec 2
  | .cylinder _ => 0#2
  | .head _ _ => 1#2
  | .faultClear => 2#2
  | .recalibrate => 2#2

/-- ORDER BUS at the drive port while an order is offered there: bits 9..2 of a HEAD order and the higher bits of a
function code are zero (R13, R169, R170). -/
def DriveOrder.bus : DriveOrder → BitVec 10
  | .cylinder cyl => BitVec.ofNat 10 cyl
  | .head sel _ => BitVec.ofNat 10 (volBit sel.vol * 2 + headBit sel.head)
  | .faultClear => 1#10
  | .recalibrate => 2#10

/-- WRITE CLOCK runs at the drive port exactly while WRITE GATE is up there, and is stopped at other times (R14,
R108; log 40). -/
def DrivePort.writeClock (d : DrivePort) : Bool := d.writeGate

/-- A volume, head and sector as header word 2 (R169). -/
def headerWord2 (v : Vol) (h : Head) (sector : Nat) : Word :=
  BitVec.ofNat 16 (volBit v * 2 ^ 15 + headBit h * 2 ^ 14 + sector * 2 ^ 9)

/-! ## What a gate has carried -/

/-- Data words passed, 0..256; header words are not counted (06 6.1). -/
def wordsPassed (w : Carried) : Nat := min w.data.length 256

/-- The data sync mark has passed: it stands before any data word. -/
def dataFieldStarted (w : Carried) : Bool := w.dataStarted || !w.data.isEmpty

/-- The check word's time ended with the gate up, one word time after the 256th data word (R9, R10). -/
def reachedCheckWord (w : Carried) : Bool := w.checkReached && decide (256 ≤ w.data.length)

/-- The first data word (R9). -/
def firstDataWord (w : Carried) : Option Word := w.data.head?

/-- The header words with the first replaced by a cylinder, bits 15..10 zero for a cylinder of the drive (R12, R170). -/
def replaceCylinder (cyl : Nat) : List Word → List Word
  | [] => []
  | _ :: rest => BitVec.ofNat 16 cyl :: rest

/-- The words a passed write sends down to the drive (R12, R108). -/
def writeDataSent (g : GateRecord) (w : Carried) : List Word :=
  (if g.kind = .formatWrite then replaceCylinder g.addr.cyl (w.header.take 3) else []) ++ w.data.take 256

/-- The words a passed read relays up to its port (R12, R106); `logical` is the view's logical target cylinder. -/
def readDataRelayed (g : GateRecord) (logical : Nat) (w : Carried) : List Word :=
  (if g.inWindow then replaceCylinder logical (w.header.take 3) else []) ++ w.data.take 256

/-- The gate record with what the lines have carried (06 6.1). -/
def GateRecord.carry (g : GateRecord) (w : Carried) : GateRecord :=
  { g with dataStarted := dataFieldStarted w, words := wordsPassed w, checkWord := reachedCheckWord w,
           firstWord := if g.kind = .read then none else firstDataWord w }

/-! ## The routing word (R132, R171) -/

/-- Destination codes. -/
inductive Destination where
  | keep | toPeer | unrouted
  deriving DecidableEq, Repr

/-- The destination named by a routing word. -/
def destination (routing : Word) : Destination :=
  if routing.extractLsb' 8 8 = 0x00#8 then .keep
  else if routing.extractLsb' 8 8 = 0x01#8 then .toPeer
  else .unrouted

/-- The sequence number of a routing word. -/
def sequenceOf (routing : Word) : BitVec 8 := routing.extractLsb' 0 8

/-! ## Maintenance frames (R161, R173) -/

/-- A well-formed frame (R173). -/
inductive Frame where
  | page (pp : Nat)
  | read (ii : BitVec 8)
  | take (ii : BitVec 8)
  | write (ii : BitVec 8) (value : Word)
  | commit
  | zeroUsage
  | clearTorn
  | restart
  | ident
  deriving DecidableEq, Repr

/-- The frame buffer and the frame error mark after the characters received (R161): a CR ends the frame, an LF is
discarded, a missing stop bit and a seventeenth character set the error mark. A CR or LF without its stop bit is taken
by the third exception alone (log 41). -/
def receive : List RxChar → List (BitVec 8) → Bool → List (BitVec 8) × Bool
  | [], buf, err => (buf, err)
  | ch :: rest, buf, err =>
    if !ch.stopBit then receive rest buf true
    else if ch.code = 13#8 then (buf, err)
    else if ch.code = 10#8 then receive rest buf err
    else if buf.length < 16 then receive rest (buf ++ [ch.code]) err
    else receive rest buf true

/-- The value of a decimal digit. -/
def decDigit (ch : BitVec 8) : Option Nat :=
  let n := ch.toNat
  if 48 ≤ n && n ≤ 57 then some (n - 48) else none

/-- The value of a hexadecimal digit, capital or small (R173). -/
def hexDigit (ch : BitVec 8) : Option Nat :=
  let n := ch.toNat
  if 48 ≤ n && n ≤ 57 then some (n - 48)
  else if 65 ≤ n && n ≤ 70 then some (n - 55)
  else if 97 ≤ n && n ≤ 102 then some (n - 87)
  else none

/-- The value of a run of digits in a base, most significant first. -/
def digits (digit : BitVec 8 → Option Nat) (base : Nat) : List (BitVec 8) → Option Nat → Option Nat
  | [], acc => acc
  | ch :: rest, acc =>
    match digit ch, acc with
    | some d, some n => digits digit base rest (some (n * base + d))
    | _, _ => none

/-- The frame that a line of characters spells by the table of R173; none where it departs from it in any way. -/
def parseFrame (chars : List (BitVec 8)) : Option Frame :=
  match chars with
  | [l] =>
    match l.toNat with
    | 67 => some .commit
    | 85 => some .zeroUsage
    | 75 => some .clearTorn
    | 88 => some .restart
    | 73 => some .ident
    | _ => none
  | [l, sp, d1, d0] =>
    if sp.toNat = 32 then
      match l.toNat with
      | 80 => (digits decDigit 10 [d1, d0] (some 0)).map .page
      | 82 => (digits hexDigit 16 [d1, d0] (some 0)).map fun n => .read (BitVec.ofNat 8 n)
      | 84 => (digits hexDigit 16 [d1, d0] (some 0)).map fun n => .take (BitVec.ofNat 8 n)
      | _ => none
    else none
  | [l, sp1, i1, i0, sp2, v3, v2, v1, v0] =>
    if l.toNat = 87 && sp1.toNat = 32 && sp2.toNat = 32 then
      match digits hexDigit 16 [i1, i0] (some 0), digits hexDigit 16 [v3, v2, v1, v0] (some 0) with
      | some ii, some v => some (.write (BitVec.ofNat 8 ii) (BitVec.ofNat 16 v))
      | _, _ => none
    else none
  | _ => none

/-- The characters spell a frame. -/
def spells (chars : List (BitVec 8)) (f : Frame) : Bool := decide (parseFrame chars = some f)

/-- The frame received, with its error mark taken into account (R161). -/
def frameOf (chars : List RxChar) : Option Frame :=
  match receive chars [] false with
  | (_, true) => none
  | (buf, false) => parseFrame buf

/-- A hexadecimal digit in capitals (R173). -/
def hexChar (n : Nat) : BitVec 8 := BitVec.ofNat 8 (if n < 10 then 48 + n else 55 + n)

/-- Two hexadecimal digits. -/
def hex2 (n : Nat) : List (BitVec 8) := [hexChar (n / 16 % 16), hexChar (n % 16)]

/-- Four hexadecimal digits. -/
def hex4 (n : Nat) : List (BitVec 8) := hex2 (n / 256) ++ hex2 n

/-- A frame spelled in capitals (R173). Frames without hexadecimal digits have no other spelling. -/
def Frame.chars : Frame → List (BitVec 8)
  | .page pp => [80#8, 32#8, BitVec.ofNat 8 (48 + pp / 10 % 10), BitVec.ofNat 8 (48 + pp % 10)]
  | .read ii => [82#8, 32#8] ++ hex2 ii.toNat
  | .take ii => [84#8, 32#8] ++ hex2 ii.toNat
  | .write ii v => [87#8, 32#8] ++ hex2 ii.toNat ++ [32#8] ++ hex4 v.toNat
  | .commit => [67#8]
  | .zeroUsage => [85#8]
  | .clearTorn => [75#8]
  | .restart => [88#8]
  | .ident => [73#8]

/-- A reply as it is sent, ended by CR and LF (R173). -/
def Reply.chars : Reply → List (BitVec 8)
  | .ok => [79#8, 75#8, 13#8, 10#8]
  | .value w => [61#8, 32#8] ++ hex4 w.toNat ++ [13#8, 10#8]
  | .badFrame => [63#8, 70#8, 13#8, 10#8]
  | .badPage => [63#8, 80#8, 13#8, 10#8]
  | .badIndex => [63#8, 73#8, 13#8, 10#8]
  | .readOnly => [63#8, 82#8, 13#8, 10#8]
  | .busy => [63#8, 66#8, 13#8, 10#8]
  | .notRunning => [63#8, 78#8, 13#8, 10#8]
  | .invalid n => [63#8, 86#8, 32#8, BitVec.ofNat 8 (48 + n), 13#8, 10#8]

end Sys2Proof.Machine
end

