-- ==== Sys2Proof/WellFormed.lean ====
section
/-! DEFINITION. Which commands the world can send: the operands within the ranges the spec gives the rows. -/

namespace Sys2Proof

open Machine

/-- What a gate can have carried: at most 3 header words and 256 data words, no data word before the data sync mark,
and the check word's time after the 256th data word (R7 to R10). -/
def Carried.wellFormed (w : Carried) : Bool :=
  decide (w.header.length ≤ 3) && decide (w.data.length ≤ 256) && (w.dataStarted || w.data.isEmpty)
    && (!w.checkReached || decide (w.data.length = 256))

/-- The range check of each command's operands. -/
def Instr.wellFormed : Instr → Bool
  | .cylinderOrder _ _ w => w.wellFormed
  | .headOrder _ _ w => w.wellFormed
  | .unknownFunctionCode _ code => !knownFunction code
  | .gateDrop _ w => w.wellFormed
  | .presenceLost _ w => w.wellFormed
  | .writeClockLost w => w.wellFormed && w.dataStarted && !w.checkReached
  | .supplyWriteCutAtCheckWord w => w.wellFormed && w.checkReached
  | .sectorStart _ w => w.wellFormed
  | .orderWithdrawn w => w.wellFormed
  | .seekErrorRise w => w.wellFormed
  | .driveFaultLine w => w.wellFormed
  | .onCylinderFall w => w.wellFormed
  | .readyFall w => w.wellFormed
  | .rotationLost w => w.wellFormed
  | .supplyWarning w => w.wellFormed
  | .interlockAgedOut _ cyl => decide (1 ≤ cyl) && decide (cyl ≤ 407)
  | .pCommand page => decide (page ≤ 99)
  | .malformedFrame chars => (frameOf chars).isNone
  | .powerOn _ => true
  | .recalibrate _ => true
  | .faultClear _ => true
  | .report _ => true
  | .orderNamingNoKind _ _ => true
  | .orderStrobeFall _ => true
  | .gateArrival _ _ _ => true
  | .attach _ => true
  | .internalWriteGateRise => true
  | .checkError => true
  | .internalReadEnd _ _ _ => true
  | .internalWriteEnd => true
  | .driveOrderAcknowledge => true
  | .driveAcknowledgeFall => true
  | .onCylinderRise => true
  | .clearingStepSucceeded => true
  | .seekNoAnswer => true
  | .clearingTimeLimit => true
  | .recalibrationTimeLimit => true
  | .readyRise => true
  | .readyAccepted => true
  | .supplyClearAccepted => true
  | .releaseInterval => true
  | .budgetExpiry => true
  | .interlockChainEnd _ => true
  | .rCommand ii text => spells text (.read ii)
  | .rUptimeLow text => spells text (.read 12#8)
  | .rUptimeHigh text => spells text (.read 13#8)
  | .wEnableWord ii v text => spells text (.write ii v)
  | .wStagedImage ii v text => spells text (.write ii v)
  | .wNotWritable ii v text => spells text (.write ii v)
  | .tCommand ii text => spells text (.take ii)
  | .cCommand => true
  | .uCommand => true
  | .kCommand => true
  | .iCommand => true
  | .xCommand => true
  | .replySent w => w.wellFormed
  | .writeProtectedChange _ => true
  | .unpassedGateDrop _ _ => true
  | .presentRise _ => true
  | .supplyWarningInputClears => true

/-- The command is one the world can send. -/
abbrev Instr.WellFormed (i : Instr) : Prop := i.wellFormed = true

end Sys2Proof
end

