-- ==== Sys2Proof/Decode.lean ====
section
/-! DEFINITION. The table of this block gives its rows no bits, so no word spells a command (log 36). -/

namespace Sys2Proof

/-- The command a word spells by the table's bits: none, since no row gives bits. -/
def decodeTableWord (_nbits _w : Nat) : Option Instr := none

end Sys2Proof
end

