-- ==== Sys2Proof/Machine/Images.lean ====
section
/-! DEFINITION. The map and label images as the Map Store reads them: extents and parameters (R47, R48, R171, R172),
the check word (R51), validation V1 to V8 (R52 to R57), lookup (R49), and the images a commit writes (R62). -/

namespace Sys2Proof.Machine

/-- Word k of an image as an unsigned number (R172). -/
def imageWord (img : Image) (k : Nat) : Nat := (img[k]?.getD 0#16).toNat

/-- Two images hold the same 256 words. -/
def sameImage (x y : Image) : Bool := x.toList == y.toList

/-! ## Extents and parameters -/

/-- An extent record as decoded (03 3.2, R171). `code` is the class code, 4 to 7 unknown. -/
structure Extent where
  inUse  : Bool
  vol    : Vol
  code   : Nat
  permit : Bool
  ls     : Nat
  n      : Nat
  ps     : Nat
  deriving DecidableEq, Repr

/-- The extent whose flags word is word k: flags, Ls, n, Ps (R171). -/
def extentAt (img : Image) (k : Nat) : Extent :=
  let flags := imageWord img k
  { inUse := flags.testBit 15, vol := if flags.testBit 8 then .r else .f, code := flags % 8,
    permit := flags.testBit 4, ls := imageWord img (k + 1), n := imageWord img (k + 2), ps := imageWord img (k + 3) }

/-- The four extents of a section that begins at word k (R171). -/
def sectionAt (img : Image) (k : Nat) : List Extent :=
  [extentAt img k, extentAt img (k + 4), extentAt img (k + 8), extentAt img (k + 12)]

/-- A channel's F extents in a map image (R171). -/
def mapSection (img : Image) : Chan → List Extent
  | .a => sectionAt img 12
  | .b => sectionAt img 28

/-- A channel's R extents in a label image (R171). -/
def labelSection (img : Image) : Chan → List Extent
  | .a => sectionAt img 2
  | .b => sectionAt img 18

/-- The class of a class code; none where it is unknown (R54, R171). -/
def classOf : Nat → Option ExtClass
  | 0 => some .readWrite
  | 1 => some .readOnly
  | 2 => some .shared
  | 3 => some .mailbox
  | _ => none

/-- A channel's W, T, L and Lw (03 3.3). -/
structure Params where
  w  : Nat
  t  : Nat
  l  : Nat
  lw : Nat
  deriving DecidableEq, Repr

/-- A channel's parameters in a map image (R171). -/
def paramsOf (img : Image) : Chan → Params
  | .a => ⟨imageWord img 2, imageWord img 3, imageWord img 4, imageWord img 5⟩
  | .b => ⟨imageWord img 6, imageWord img 7, imageWord img 8, imageWord img 9⟩

/-! ## Validation -/

/-- The sum of the 256 words modulo 65536 (R51). -/
def imageSum (img : Image) : Nat := (img.toList.foldl (fun s w => s + w.toNat) 0) % 65536

/-- The parameter ranges of one channel (03 3.3, R53). -/
def Params.inRange (p : Params) : Bool :=
  decide (1 ≤ p.w ∧ p.w ≤ 15) && decide (20 ≤ p.t ∧ p.t ≤ 2000) && decide (2 ≤ p.l ∧ p.l ≤ 250)
    && (decide (p.lw = 0) || decide (50 ≤ p.lw ∧ p.lw ≤ 5000))

/-- V3 does not hold: every parameter of the map image is in range (R53). -/
def paramsInRange (img : Image) : Bool :=
  (paramsOf img .a).inRange && (paramsOf img .b).inRange
    && decide (5 ≤ imageWord img 10 ∧ imageWord img 10 ≤ 250)
    && decide (100 ≤ imageWord img 11 ∧ imageWord img 11 ≤ 10000)

/-- An in-use entry is malformed in an image whose own volume is `home` (V4, R54). -/
def Extent.malformed (home : Vol) (e : Extent) : Bool :=
  e.inUse && (e.n == 0 || decide (408 < e.ls + e.n) || decide (408 < e.ps + e.n) || e.ps == 0 || decide (e.vol ≠ home))

/-- An in-use entry carries an unknown class code (V8, R54). -/
def Extent.unknownClass (e : Extent) : Bool := e.inUse && decide (4 ≤ e.code)

/-- An entry with its channel. -/
structure Claimed where
  chan : Chan
  ext  : Extent
  deriving DecidableEq, Repr

/-- The entries of one image that V5, V6 and V7 judge: in use, of a known class, not malformed (R52). -/
def judgedEntries (home : Vol) (entries : Chan → List Extent) : List Claimed :=
  let keep (e : Extent) : Bool := e.inUse && !e.malformed home && !e.unknownClass
  ((entries .a).filter keep).map (⟨.a, ·⟩) ++ ((entries .b).filter keep).map (⟨.b, ·⟩)

/-- Some two entries of a list, an earlier and a later one, are related. -/
def anyPair (related : Claimed → Claimed → Bool) : List Claimed → Bool
  | [] => false
  | x :: rest => rest.any (related x) || anyPair related rest

/-- Two runs of cylinders share one. -/
def spansMeet (s n s' n' : Nat) : Bool := decide (s < s' + n') && decide (s' < s + n)

/-- V5: one channel, one volume, logical spans that share a cylinder (R55). -/
def logicalOverlap (x y : Claimed) : Bool :=
  decide (x.chan = y.chan) && decide (x.ext.vol = y.ext.vol) && spansMeet x.ext.ls x.ext.n y.ext.ls y.ext.n

/-- The entry has class MAILBOX. -/
def Claimed.mailbox (x : Claimed) : Bool := x.ext.code == 3

/-- V6: different channels, one volume, physical spans that share a cylinder, neither class MAILBOX and either
READ-WRITE (R56). -/
def forbiddenOverlap (x y : Claimed) : Bool :=
  decide (x.chan ≠ y.chan) && decide (x.ext.vol = y.ext.vol) && spansMeet x.ext.ps x.ext.n y.ext.ps y.ext.n
    && !x.mailbox && !y.mailbox && (x.ext.code == 0 || y.ext.code == 0)

/-- V7: the mailbox rules are broken (R57). -/
def mailboxBroken (es : List Claimed) : Bool :=
  let boxes := es.filter (·.mailbox)
  let ofA := boxes.filter fun x => decide (x.chan = .a)
  let ofB := boxes.filter fun x => decide (x.chan = .b)
  (ofA.isEmpty != ofB.isEmpty)
    || decide (1 < ofA.length) || decide (1 < ofB.length)
    || boxes.any (fun x => decide (x.ext.vol = .r))
    || boxes.any (fun x => x.ext.n != 1)
    || anyPair (fun x y => decide (x.chan ≠ y.chan) && x.ext.ps != y.ext.ps) boxes
    || boxes.any (fun x => es.any fun y =>
        !y.mailbox && decide (y.ext.vol = .f) && decide (y.ext.ps ≤ x.ext.ps) && decide (x.ext.ps < y.ext.ps + y.ext.n))

/-- V4 holds of some entry of an image (R54). -/
def anyMalformed (home : Vol) (entries : Chan → List Extent) : Bool :=
  (entries .a).any (·.malformed home) || (entries .b).any (·.malformed home)

/-- V8 holds of some entry of an image (R54). -/
def anyUnknown (entries : Chan → List Extent) : Bool :=
  (entries .a).any (·.unknownClass) || (entries .b).any (·.unknownClass)

/-- The first reason of a list that holds. -/
def firstReason : List (Nat × Bool) → Option Nat
  | [] => none
  | (n, holds) :: rest => if holds then some n else firstReason rest

/-- The reasons that judge entries together (R55 to R57). -/
def entryReasons (es : List Claimed) : List (Nat × Bool) :=
  [(5, anyPair logicalOverlap es), (6, anyPair forbiddenOverlap es), (7, mailboxBroken es)]

/-- The lowest reason, 1 to 8, for which a map image is refused; none where it is valid (R52). -/
def validateMap (img : Image) : Option Nat :=
  firstReason ([(1, imageWord img 0 != 0x5A3C), (2, imageSum img != 0), (3, !paramsInRange img),
    (4, anyMalformed .f (mapSection img))] ++ entryReasons (judgedEntries .f (mapSection img))
    ++ [(8, anyUnknown (mapSection img))])

/-- The same for a label image (R52). -/
def validateLabel (img : Image) : Option Nat :=
  firstReason ([(1, imageWord img 0 != 0x3CA5), (2, imageSum img != 0), (4, anyMalformed .r (labelSection img))]
    ++ entryReasons (judgedEntries .r (labelSection img)) ++ [(8, anyUnknown (labelSection img))])

/-- The same for a staged map image together with a staged label image (R52). -/
def validatePair (m l : Image) : Option Nat :=
  firstReason ([(1, imageWord m 0 != 0x5A3C || imageWord l 0 != 0x3CA5), (2, imageSum m != 0 || imageSum l != 0),
    (3, !paramsInRange m), (4, anyMalformed .f (mapSection m) || anyMalformed .r (labelSection l))]
    ++ entryReasons (judgedEntries .f (mapSection m) ++ judgedEntries .r (labelSection l))
    ++ [(8, anyUnknown (mapSection m) || anyUnknown (labelSection l))])

/-! ## The active map -/

/-- A channel's extents in effect: the F entries of a VALID map, the R entries while the label is VALID (R47, R50). -/
def MapStore.extents (m : MapStore) (c : Chan) : List Extent :=
  (if m.mapState = .valid then mapSection m.activeMap c else [])
    ++ (match m.labelState, m.heldLabel with
        | .valid, some l => labelSection l c
        | _, _ => [])

/-- The in-use extent of a table that holds logical cylinder c on a volume (R49). -/
def lookup (table : List Extent) (v : Vol) (c : Nat) : Option Extent :=
  table.find? fun e => e.inUse && decide (e.vol = v) && decide (e.ls ≤ c) && decide (c < e.ls + e.n)

/-- An in-use extent of the table on a volume whose physical span holds a cylinder satisfies a test of its class
(R115, R128). -/
def spanHas (table : List Extent) (v : Vol) (cyl : Nat) (test : ExtClass → Bool) : Bool :=
  table.any fun e => e.inUse && decide (e.vol = v) && decide (e.ps ≤ cyl) && decide (cyl < e.ps + e.n)
    && (match classOf e.code with
        | some k => test k
        | none => false)

/-- The parameters of a channel from the active map; absent while the map is MISSING (R46, R48). -/
def MapStore.params (m : MapStore) (c : Chan) : Option Params :=
  if m.mapState = .valid then some (paramsOf m.activeMap c) else none

/-- The chain end interval C and the chain age limit M; absent while the map is MISSING (R46, R48). -/
def MapStore.chainLimits (m : MapStore) : Option (Nat × Nat) :=
  if m.mapState = .valid then some (imageWord m.activeMap 10, imageWord m.activeMap 11) else none

/-- The mailbox cylinder of the active map: the physical start of its MAILBOX entries; none where it has none, and
none while the map is MISSING (R139). -/
def MapStore.mailboxCylinder (m : MapStore) : Option Nat :=
  ((m.extents .a).find? fun e => e.inUse && decide (e.vol = .f) && e.code == 3).map (·.ps)

/-- The active revision count, 0 while the map is MISSING (R62). -/
def MapStore.revision (m : MapStore) : Nat := if m.mapState = .valid then imageWord m.activeMap 1 else 0

/-- The held label image, or zero words (R46, R61). -/
def MapStore.labelImage (m : MapStore) : Image := m.heldLabel.getD .zero

/-! ## The images a commit writes -/

/-- An image with its check word computed: word 255 is the negation of the sum of the others (R51). -/
def withCheckWord (img : Image) : Image :=
  let bare := img.set 255 0#16
  bare.set 255 (BitVec.ofNat 16 (65536 - imageSum bare))

/-- An image with its ignored words, from word k to word 254, zero (R62). -/
def clearedFrom (k : Nat) (img : Image) : Image :=
  Vector.ofFn fun i : Fin 256 => if k ≤ i.val ∧ i.val ≤ 254 then 0#16 else img[i]

/-- The map image a commit writes: the staged image with the next revision count (R62). -/
def mapToWrite (staged : Image) (revision : Nat) : Image :=
  withCheckWord ((clearedFrom 44 staged).set 1 (BitVec.ofNat 16 ((revision + 1) % 65536)))

/-- The label image a commit writes (R62). -/
def labelToWrite (staged : Image) : Image := withCheckWord (clearedFrom 34 staged)

/-- The image an internal write carries (R62, R63). -/
def CommitImages.imageFor (imgs : CommitImages) : Vol → Image
  | .f => imgs.map
  | .r => imgs.label.getD .zero

/-- Words 1 to 33 of two label images are equal: the serial number and words 2 to 33 (R149). -/
def sameCartridge (x y : Image) : Bool := (x.toList.drop 1).take 33 == (y.toList.drop 1).take 33

end Sys2Proof.Machine
end

