-- ==== Sys2Proof/Machine/Flags.lean ====
section
/-! DEFINITION. Every flag and level the part computes: the event flags with their records and the alarm contact
(R155 to R160, R173), the detail words (R174), the attention causes and the REPORT word (R41, R42, R169), the levels of
a channel port (R1, R19 to R21). -/

namespace Sys2Proof.Machine

/-! ## Attention causes -/

/-- The set with a cause present (R41: adding a present cause changes nothing). -/
def Causes.add (s : Causes) : Cause → Causes
  | .mailboxNotice => { s with mailboxNotice := true }
  | .cartridgeChanged => { s with cartridgeChanged := true }
  | .peerDetached => { s with peerDetached := true }
  | .peerAttached => { s with peerAttached := true }
  | .mapChanged => { s with mapChanged := true }
  | .peerTornWrite => { s with peerTornWrite := true }
  | .preempted => { s with preempted := true }
  | .attached => { s with attached := true }

/-- The set that REPORT leaves: MAILBOX NOTICE alone is kept (R28). -/
def Causes.afterReport (s : Causes) : Causes := { Causes.empty with mailboxNotice := s.mailboxNotice }

/-- Bits 15..8 of the REPORT word (R169). -/
def Causes.bits (s : Causes) : Nat :=
  s.mailboxNotice.toNat * 2 ^ 15 + s.cartridgeChanged.toNat * 2 ^ 14 + s.peerDetached.toNat * 2 ^ 13
    + s.peerAttached.toNat * 2 ^ 12 + s.mapChanged.toNat * 2 ^ 11 + s.peerTornWrite.toNat * 2 ^ 10
    + s.preempted.toNat * 2 ^ 9 + s.attached.toNat * 2 ^ 8

/-- The ATTENTION level: high exactly when the cause set is non-empty (R42). -/
def Causes.attention (s : Causes) : Bool :=
  s.mailboxNotice || s.cartridgeChanged || s.peerDetached || s.peerAttached || s.mapChanged || s.peerTornWrite
    || s.preempted || s.attached

/-- The view fault cause in the REPORT word (R169). -/
def FaultCause.code : FaultCause → Nat
  | .none => 0
  | .protectedWrite => 1
  | .gateOverrun => 2
  | .orderDuringGate => 3
  | .formatRefused => 4

/-- The oldest slot of a notice list, or 31 (R28, R137). -/
def oldestSlot : List (Fin 24) → Nat
  | [] => 31
  | s :: _ => s.val

/-- The REPORT word (R28, R169). -/
def reportWord (causes : Causes) (notice : List (Fin 24)) (fault : FaultCause) : Word :=
  BitVec.ofNat 16 (causes.bits + oldestSlot notice * 2 ^ 3 + fault.code)

/-! ## Event flags -/

/-- A flag: a per-channel kind with its channel, or a kind with a single flag (10 10.1). -/
inductive Flag where
  | chan (c : Chan) (e : ChanEvent)
  | sole (e : SoleEvent)
  deriving DecidableEq, Repr

/-- The bit of a per-channel kind in its flag word (R173). -/
def ChanEvent.bit : ChanEvent → Fin 14
  | .unmappedSeek => 0
  | .protectedWrite => 1
  | .formatRefused => 2
  | .gateOverrun => 3
  | .orderDuringGate => 4
  | .gateWithoutPosition => 5
  | .tornSector => 6
  | .interlockYield => 7
  | .interlockOverflow => 8
  | .budgetPreemption => 9
  | .waitLimitGrant => 10
  | .mailboxSequenceGap => 11
  | .mailboxUnrouted => 12
  | .presenceLost => 13

/-- The number of a per-channel kind, E1 to E29 (10 10.1). -/
def ChanEvent.number : ChanEvent → Nat
  | .unmappedSeek => 1
  | .protectedWrite => 2
  | .formatRefused => 3
  | .gateOverrun => 4
  | .orderDuringGate => 5
  | .gateWithoutPosition => 6
  | .tornSector => 7
  | .interlockYield => 21
  | .interlockOverflow => 23
  | .budgetPreemption => 24
  | .waitLimitGrant => 25
  | .mailboxSequenceGap => 26
  | .mailboxUnrouted => 27
  | .presenceLost => 28

/-- The bit of a single kind in the single flag word (R173). -/
def SoleEvent.bit : SoleEvent → Fin 15
  | .tornListOverflow => 0
  | .seekTimeout => 1
  | .seekError => 2
  | .positionerFault => 3
  | .recalibrationFailed => 4
  | .driveFaultLine => 5
  | .rotationFault => 6
  | .rotationLost => 7
  | .cartridgeChanged => 8
  | .labelInvalid => 9
  | .mapInvalid => 10
  | .mapCommitted => 11
  | .mapCommitFailed => 12
  | .interlockAgedOut => 13
  | .supplyWarning => 14

/-- The number of a single kind (10 10.1). -/
def SoleEvent.number : SoleEvent → Nat
  | .tornListOverflow => 8
  | .seekTimeout => 9
  | .seekError => 10
  | .positionerFault => 11
  | .recalibrationFailed => 12
  | .driveFaultLine => 13
  | .rotationFault => 14
  | .rotationLost => 15
  | .cartridgeChanged => 16
  | .labelInvalid => 17
  | .mapInvalid => 18
  | .mapCommitted => 19
  | .mapCommitFailed => 20
  | .interlockAgedOut => 22
  | .supplyWarning => 29

/-- The number of a flag's kind. -/
def Flag.number : Flag → Nat
  | .chan _ e => e.number
  | .sole e => e.number

/-- A flag's enable. -/
def Enables.get (en : Enables) : Flag → Bool
  | .chan .a e => en.a.getLsbD e.bit.val
  | .chan .b e => en.b.getLsbD e.bit.val
  | .sole e => en.sole.getLsbD e.bit.val

/-- The record held for a flag: held exactly while the flag is set (R156). -/
def EventUnit.record (ev : EventUnit) : Flag → Option FirstRecord
  | .chan .a e => ev.recordsA[e.bit]
  | .chan .b e => ev.recordsB[e.bit]
  | .sole e => ev.recordsSole[e.bit]

/-- The number whose bits, least significant first, are those of a list. -/
def bitsToNat : List Bool → Nat
  | [] => 0
  | b :: rest => b.toNat + 2 * bitsToNat rest

/-- The flags of a run of records, as a number: bit k is set while record k is held (R173). -/
def flagBits {n : Nat} (records : Vector (Option FirstRecord) n) : Nat :=
  bitsToNat (records.toList.map (·.isSome))

/-- The kinds split by channel, in the order of their bits (R173). -/
def ChanEvent.all : List ChanEvent :=
  [.unmappedSeek, .protectedWrite, .formatRefused, .gateOverrun, .orderDuringGate, .gateWithoutPosition, .tornSector,
    .interlockYield, .interlockOverflow, .budgetPreemption, .waitLimitGrant, .mailboxSequenceGap, .mailboxUnrouted,
    .presenceLost]

/-- The kinds with a single flag, in the order of their bits (R173). -/
def SoleEvent.all : List SoleEvent :=
  [.tornListOverflow, .seekTimeout, .seekError, .positionerFault, .recalibrationFailed, .driveFaultLine,
    .rotationFault, .rotationLost, .cartridgeChanged, .labelInvalid, .mapInvalid, .mapCommitted, .mapCommitFailed,
    .interlockAgedOut, .supplyWarning]

/-- The 43 flags (10 10.1). -/
def Flag.all : List Flag :=
  ChanEvent.all.map (.chan .a) ++ ChanEvent.all.map (.chan .b) ++ SoleEvent.all.map .sole

/-- The contact judged: closed exactly when some flag is set whose alarm enable is set (R158). -/
def EventUnit.alarmDue (ev : EventUnit) : Bool :=
  Flag.all.any fun f => (ev.record f).isSome && ev.alarmEnable.get f

/-- The contact judged again (R158). -/
def EventUnit.judged (ev : EventUnit) : EventUnit := { ev with contact := ev.alarmDue }

/-- A record put behind its flag (R156). -/
def EventUnit.capture (ev : EventUnit) (f : Flag) (r : FirstRecord) : EventUnit :=
  match f with
  | .chan .a e => { ev with recordsA := ev.recordsA.set e.bit (some r) }
  | .chan .b e => { ev with recordsB := ev.recordsB.set e.bit (some r) }
  | .sole e => { ev with recordsSole := ev.recordsSole.set e.bit (some r) }

/-- An occurrence taken against its flag (R155). -/
def EventUnit.occurrence (ev : EventUnit) (f : Flag) (r : FirstRecord) : EventUnit :=
  if ev.recordEnable.get f && (ev.record f).isNone then (ev.capture f r).judged else ev

/-- The part with an event raised: flag, optional channel, address, detail word, at the present uptime (R155, R156). -/
def raise (f : Flag) (c : Option Chan) (addr : PartAddr) (detail : Nat) (s : State) : State :=
  { s with ev := s.ev.occurrence f ⟨f.number, c, addr, BitVec.ofNat 16 detail, s.uptime⟩ }

/-- An event of a kind split by channel. -/
def raiseFor (c : Chan) (e : ChanEvent) (addr : PartAddr) (detail : Nat) (s : State) : State :=
  raise (.chan c e) (some c) addr detail s

/-- An event of a kind with a single flag, with no channel. -/
def raiseSole (e : SoleEvent) (addr : PartAddr) (detail : Nat) (s : State) : State :=
  raise (.sole e) none addr detail s

/-- The take of flag word w, 0 to 2: its flags cleared, their records freed, the contact judged (R159). -/
def EventUnit.take (ev : EventUnit) (w : Nat) : EventUnit :=
  (match w with
   | 0 => { ev with recordsA := Vector.replicate 14 none }
   | 1 => { ev with recordsB := Vector.replicate 14 none }
   | 2 => { ev with recordsSole := Vector.replicate 15 none }
   | _ => ev).judged

/-- A write to enable word w, 3 to 8, of page 7: the named bits alone change, and the contact is judged (R157, R173). -/
def EventUnit.writeEnable (ev : EventUnit) (w : Nat) (v : Word) : EventUnit :=
  (match w with
   | 3 => { ev with recordEnable := { ev.recordEnable with a := v.extractLsb' 0 14 } }
   | 4 => { ev with recordEnable := { ev.recordEnable with b := v.extractLsb' 0 14 } }
   | 5 => { ev with recordEnable := { ev.recordEnable with sole := v.extractLsb' 0 15 } }
   | 6 => { ev with alarmEnable := { ev.alarmEnable with a := v.extractLsb' 0 14 } }
   | 7 => { ev with alarmEnable := { ev.alarmEnable with b := v.extractLsb' 0 14 } }
   | 8 => { ev with alarmEnable := { ev.alarmEnable with sole := v.extractLsb' 0 15 } }
   | _ => ev).judged

/-! ## Addresses of events -/

/-- A whole physical address. -/
def Addr.whole (x : Addr) : PartAddr := ⟨some x.vol, some x.cyl, some x.head, some x.sector⟩

/-- A volume and cylinder alone (R129). -/
def placeAddr (v : Vol) (cyl : Nat) : PartAddr := ⟨some v, some cyl, none, none⟩

/-- A cylinder alone (R102). -/
def cylAddr (cyl : Nat) : PartAddr := ⟨none, some cyl, none, none⟩

/-- A cylinder with the last ordered volume and head, where the drive has any (R102, R155). -/
def cylSelAddr (cyl : Nat) : Option Sel → PartAddr
  | some x => ⟨some x.vol, some cyl, some x.head, none⟩
  | none => cylAddr cyl

/-! ## Detail words (R174) and codes (R173) -/

/-- The code of a view state: its position in the list of 02 2.1. -/
def ViewState.code : ViewState → Nat
  | .detached => 0
  | .notReady => 1
  | .standby => 2
  | .requesting => 3
  | .deferred => 4
  | .positioned => 5
  | .transferring => 6
  | .faulted => 7

/-- The code of a Drive Watch state. -/
def WatchState.code : WatchState → Nat
  | .spunDown => 0
  | .spinningUp => 1
  | .calibrating => 2
  | .readingMap => 3
  | .readingLabel => 4
  | .running => 5
  | .supplyHold => 6
  | .driveFault => 7

/-- The code of a positioner state. -/
def PosState.code : PosState → Nat
  | .idle => 0
  | .seeking => 1
  | .clearing => 2
  | .recalibrating => 3
  | .halted => 4

/-- The kind of gate in E2, E3 and E4. -/
def GateKind.code : GateKind → Nat
  | .read => 0
  | .dataWrite => 1
  | .formatWrite => 2

/-- The cause of tearing in E7, E8 and page 6. -/
def TearCause.code : TearCause → Nat
  | .shortWrite => 0
  | .gateOverrun => 1
  | .presenceLost => 2
  | .driveDropped => 3
  | .driveFault => 4

/-- A channel as shown on the pages. -/
def chanCode : Chan → Nat
  | .a => 0
  | .b => 1

/-- A writer as shown on page 6 and in E8. -/
def Writer.code : Writer → Nat
  | .chan c => chanCode c
  | .internal => 2

/-- Where a step stood, in E12. -/
def Stage.code : Stage → Nat
  | .preparation => 0
  | .recovery => 1
  | .closing => 2
  | .calibration => 3

/-- Detail of E1: volume and logical cylinder value ordered. -/
def detailE1 (v : Vol) (value : Nat) : Nat := volBit v * 2 ^ 15 + value

/-- Detail of E2 and E3: kind of write and number of the check. -/
def detailE2 (k : GateKind) (check : Nat) : Nat := k.code * 2 ^ 14 + check

/-- Detail of E4: kind of gate and words passed. -/
def detailE4 (k : GateKind) (words : Nat) : Nat := k.code * 2 ^ 14 + words

/-- Detail of E6: view state at the rise, and read or write. -/
def detailE6 (st : ViewState) (line : GateLine) : Nat :=
  st.code * 2 ^ 13 + (match line with | .read => 0 | .write => 1)

/-- Detail of E7: cause and words passed. -/
def detailE7 (cause : TearCause) (words : Nat) : Nat := cause.code * 2 ^ 13 + words

/-- Detail of E8: writer and cause of the removed entry. -/
def detailE8 (e : TornEntry) : Nat := e.writer.code * 2 ^ 12 + e.cause.code

/-- Causes of a failed step, in E12. -/
inductive StepCause where
  | timeLimit | seekError | fault | withdrawal
  deriving DecidableEq, Repr

/-- The code of a cause of a failed step. -/
def StepCause.code : StepCause → Nat
  | .timeLimit => 0
  | .seekError => 1
  | .fault => 2
  | .withdrawal => 3

/-- Detail of E12: where the step stood, the step, the cause. -/
def detailE12 (stage : Stage) (recalibration : Bool) (cause : StepCause) : Nat :=
  stage.code * 2 ^ 8 + recalibration.toNat * 2 ^ 4 + cause.code

/-- Detail of E14: which fault and the sector count. -/
def detailE14 (extraSector : Bool) (count : Nat) : Nat := extraSector.toNat * 2 ^ 15 + count

/-- Detail of E26: sequence number and expectation. -/
def detailE26 (q e : BitVec 8) : Nat := q.toNat * 2 ^ 8 + e.toNat

/-! ## Usability and the levels of a channel port -/

/-- The drive is usable (R19). -/
def usable (s : State) : Bool := decide (s.watch.st = .running) && decide (s.map.mapState = .valid)

/-- A volume is usable (R19). -/
def usableVol (s : State) : Vol → Bool
  | .f => usable s
  | .r => usable s && decide (s.map.labelState = .valid)

/-- The drive port's protection mark of a volume (R15). -/
def DrivePort.prot (d : DrivePort) : Vol → Bool
  | .f => d.protF
  | .r => d.protR

/-- The levels at a channel port (R1). -/
structure Levels where
  ready          : Bool
  onCylinder     : Bool
  seekError      : Bool
  fault          : Bool
  writeProtected : Bool
  attention      : Bool
  deriving DecidableEq, Repr

/-- Every level inactive (R1). -/
def Levels.inactive : Levels := ⟨false, false, false, false, false, false⟩

/-- The view has a target of a class. -/
def View.targetIs (v : View) (k : ExtClass) : Bool :=
  match v.target with
  | some t => decide (t.cls = k)
  | none => false

/-- WRITE PROTECTED at a view that is not DETACHED (R21). -/
def writeProtectedLevel (s : State) (v : View) : Bool :=
  v.targetIs .readOnly || (v.targetIs .mailbox && decide (v.sel.head = .h1)) || s.drive.prot v.sel.vol || v.slotProt

/-- The levels that a channel port presents (R1, R20, R21, R42). -/
def portLevels (s : State) (c : Chan) : Levels :=
  let v := s.views.get c
  if v.st = .detached then .inactive
  else
    { ready := decide (v.st ≠ .notReady) && usableVol s v.sel.vol,
      onCylinder := decide (v.st = .positioned ∨ v.st = .transferring), seekError := v.seekError,
      fault := decide (v.st = .faulted), writeProtected := writeProtectedLevel s v,
      attention := v.causes.attention }

end Sys2Proof.Machine
end

