-- ==== Sys2Proof/Machine/Ops.lean ====
section
/-! DEFINITION. The named operations over the registers of the part: reads and writes of views and ports, the drive
port's order queue (R13), Positioner Control's orders (R91, R92, R94, R95), the relay's head selection (R104) and the
beginning of an internal transfer (R58, R63). A block has no exception entry: raising a flag is Flags.raise. -/

namespace Sys2Proof.Machine

/-! ## Views and ports -/

/-- A channel's view. -/
def State.view (s : State) (c : Chan) : View := s.views.get c

/-- A channel's port. -/
def State.port (s : State) (c : Chan) : Port := s.ports.get c

/-- The part with a channel's view replaced. -/
def setView (c : Chan) (v : View) (s : State) : State := { s with views := s.views.set c v }

/-- The part with a channel's port replaced. -/
def setPort (c : Chan) (p : Port) (s : State) : State := { s with ports := s.ports.set c p }

/-- A view put in a state. -/
def setViewState (c : Chan) (st : ViewState) (s : State) : State := setView c { s.view c with st := st } s

/-- A cause given to a view: a DETACHED view does not keep it (R41). -/
def giveCause (c : Chan) (k : Cause) (s : State) : State :=
  if (s.view c).st = .detached then s
  else setView c { s.view c with causes := (s.view c).causes.add k } s

/-- The idle count set to 0, in a state other than DETACHED (R44). -/
def idleToZero (c : Chan) (s : State) : State :=
  if (s.view c).st = .detached then s else setView c { s.view c with idle := 0 } s

/-- A view without its target: its slot protection mark is cleared with it (R21). -/
def View.withoutTarget (v : View) : View := { v with target := none, slotProt := false }

/-- A view whose translation failed: SEEK ERROR set and no target (R22). -/
def View.seekFailed (v : View) : View := { v.withoutTarget with seekError := true }

/-- The lines of a port held inactive (R1). -/
def Port.inactive (p : Port) : Port := { p with ack := false, returnBus := 0#16, pulse := none, readData := [] }

/-- The place a view's target names for the actuator: the selected volume and the physical cylinder (R23, R123). -/
def View.place (v : View) : Option Place := v.target.map fun t => ⟨v.sel.vol, t.physical⟩

/-! ## The drive port (R13) -/

/-- A gate is up at the drive port. -/
def gateUp (s : State) : Bool := s.drive.readGate || s.drive.writeGate

/-- An order waits while a gate is up at the drive port (R13). -/
def DriveOrder.waitsForGate : DriveOrder → Bool
  | .cylinder _ => true
  | .head _ _ => true
  | .faultClear => false
  | .recalibrate => false

/-- The order was issued by Positioner Control. -/
def DriveOrder.ofPositioner : DriveOrder → Bool
  | .cylinder _ => true
  | .head _ _ => false
  | .faultClear => true
  | .recalibrate => true

/-- The order is a HEAD order of an issuer. -/
def DriveOrder.headBy (i : HeadIssuer) : DriveOrder → Bool
  | .head _ j => decide (j = i)
  | _ => false

/-- The next waiting order offered, if the port is free to offer it: no order offered, the acknowledgement down, and
no gate up for a CYLINDER or HEAD order (R13). -/
def offerNext (s : State) : State :=
  if s.drive.offered.isSome || s.drive.ack then s
  else
    match s.drive.waiting with
    | [] => s
    | o :: rest =>
      if o.waitsForGate && gateUp s then s
      else { s with drive := { s.drive with offered := some o, strobeTicks := 0, waiting := rest } }

/-- An order requested at the drive port (R13). -/
def requestOrder (o : DriveOrder) (s : State) : State :=
  offerNext { s with drive := { s.drive with waiting := s.drive.waiting ++ [o] } }

/-- The HEAD orders of an issuer that still wait are discarded (R104, log 17). -/
def discardHeads (i : HeadIssuer) (s : State) : State :=
  { s with drive := { s.drive with waiting := s.drive.waiting.filter fun o => !o.headBy i } }

/-- The gates dropped at the drive port; an order that waited for them may be offered (R13). -/
def dropDriveGates (s : State) : State :=
  offerNext { s with drive := { s.drive with readGate := false, writeGate := false } }

/-! ## Positioner Control's orders -/

/-- A clearing step begins (R94). -/
def startClearing (stage : Stage) (s : State) : State :=
  requestOrder .faultClear { s with pos := { s.pos with st := .clearing, stage := stage, ticks := none } }

/-- A recalibration step begins (R95). -/
def startRecalibration (stage : Stage) (s : State) : State :=
  requestOrder .recalibrate { s with pos := { s.pos with st := .recalibrating, stage := stage, ticks := none } }

/-- An attempt: the CYLINDER order, and SEEKING (R92 check 3). -/
def attemptSeek (cyl : Nat) (s : State) : State :=
  requestOrder (.cylinder cyl) { s with pos := { s.pos with st := .seeking, ticks := none } }

/-- FAULT or SEEK ERROR is high at the drive port. -/
def driveTroubled (s : State) : Bool := s.drive.fault || s.drive.seekError

/-- A clearing step if FAULT or SEEK ERROR is high, otherwise a recalibration step (R92 check 1, R100). -/
def clearThenRecalibrate (stage : Stage) (s : State) : State :=
  if driveTroubled s then startClearing stage s else startRecalibration stage s

/-- The seek for the request in hand begins: preparation or attempt (R92 checks 1 and 3). Check 2 is made where a
recalibration has put the actuator on cylinder 0; no request names the cylinder the actuator is known to stand on
(R71 step 4, R72, R76, R81). -/
def beginSeek (cyl : Nat) (s : State) : State :=
  if s.pos.cyl.isNone || driveTroubled s then clearThenRecalibrate .preparation s else attemptSeek cyl s

/-- A seek request of the arbiter (R91). -/
def askSeek (cyl : Nat) (s : State) : State :=
  match s.pos.st with
  | .idle => beginSeek cyl { s with pos := { s.pos with request := some (.seek cyl), retry := false } }
  | .clearing => if s.pos.request.isNone then { s with pos := { s.pos with held := some cyl } } else s
  | .recalibrating => if s.pos.request.isNone then { s with pos := { s.pos with held := some cyl } } else s
  | .seeking => s
  | .halted => s

/-- A calibration asked for by Drive Watch: taken in HALTED alone (R100). -/
def askCalibration (s : State) : State :=
  if s.pos.st = .halted then
    clearThenRecalibrate .calibration { s with pos := { s.pos with request := some .calibration, retry := false } }
  else s

/-! ## Internal transfers -/

/-- The volume whose sector 0 an internal transfer reads or writes first (R58, R59, R63). -/
def InternalKind.firstVol : InternalKind → Vol
  | .labelRead => .r
  | .mapRead => .f
  | .mapWrite => .f

/-- The part with the transfer in hand at a phase. -/
def setXfer (x : Xfer) (s : State) : State := { s with map := { s.map with xfer := x } }

/-- A sector of an internal transfer begins: a HEAD order for its volume, head 0, unless that is the selection last
ordered, and then the wait for sector 0 (R58, R63). -/
def beginSector (v : Vol) (s : State) : State :=
  if s.pos.lastSel = some ⟨v, .h0⟩ then setXfer (.awaitSector v) s
  else requestOrder (.head ⟨v, .h0⟩ .mapStore) (setXfer (.headOrder v) s)

/-- The transfer at the head of the internal request queue begins on cylinder 0 (R81). -/
def beginTransfer (s : State) : State :=
  match s.arb.queue with
  | [] => s
  | k :: _ => beginSector k.firstVol s

/-! ## The relay's head selection (R104) -/

/-- A HEAD order of the relay's for a channel's view awaits its acknowledgement: it is offered, or waits to be (R32). -/
def headAwaited (s : State) (c : Chan) : Bool :=
  s.drive.offered.any (·.headBy (.relay c)) || s.drive.waiting.any (·.headBy (.relay c))

/-- A HEAD order with the owner's selection asked for: it replaces one of the channel's that still waits; one being
offered with this selection is enough, though it be left over from an ended grant of the channel (log 50). -/
def askHead (c : Chan) (s : State) : State :=
  let sel := (s.view c).sel
  let s1 : State := { s with relay := { s.relay with headPending := some sel } }
  if s.drive.waiting.any (·.headBy (.relay c)) then
    { s1 with drive := { s1.drive with
        waiting := s1.drive.waiting.map fun o => if o.headBy (.relay c) then .head sel (.relay c) else o } }
  else if s.drive.offered = some (.head sel (.relay c)) then s1
  else requestOrder (.head sel (.relay c)) s1

/-- At a grant start: the owner's selection compared with the one last ordered (R104). Where they agree no order is asked
for, though a HEAD order left over from an ended grant of the channel be still offered (log 50). -/
def headAtGrantStart (c : Chan) (s : State) : State :=
  if s.pos.lastSel = some (s.view c).sel then { s with relay := { s.relay with headPending := none } }
  else askHead c s

/-- At a HEAD order that a POSITIONED view takes and stays POSITIONED: the same, and a second change while the first
order is unacknowledged replaces or follows it (R104). One that repeats the pending selection asks for no order (log
54). -/
def headAtOrder (c : Chan) (s : State) : State :=
  if s.relay.headPending.isSome then
    (if s.relay.headPending = some (s.view c).sel then s else askHead c s)
  else if s.pos.lastSel = some (s.view c).sel then s
  else askHead c s

/-- The pending selection of a grant that ends is gone, and its HEAD order if it still waits (R104); one being offered
is left over (log 50). -/
def headAtGrantEnd (c : Chan) (s : State) : State :=
  discardHeads (.relay c) { s with relay := { s.relay with headPending := none } }

end Sys2Proof.Machine
end

