-- ==== Sys2Proof/Machine/ArbiterOps.lean ====
section
/-! DEFINITION. The arbiter's operations: waiting (R66), the grant decision (R68 to R71), charges (R86), grant and claim
ends (R73, R80), the release comparison (R77), requests and withdrawals (R65, R73, R76), internal requests (R67). -/

namespace Sys2Proof.Machine

/-- Another requester waits beside channel X: the peer's record, or the internal queue (R66). -/
def otherWaits (s : State) (x : Chan) : Bool :=
  (s.arb.request.get (peer x)).isSome || !s.arb.queue.isEmpty

/-- The parameters the arbiter reads for a channel (R48); absent ones are not consulted (R84, log 34). -/
def paramsFor (s : State) (c : Chan) : Params := (s.map.params c).getD ⟨0, 0, 0, 0⟩

/-! ## The grant decision -/

/-- A channel is past its wait limit (R69). -/
def pastLimit (s : State) (c : Chan) : Bool :=
  decide ((paramsFor s c).lw ≠ 0) && decide ((paramsFor s c).lw ≤ (s.view c).wait)

/-- The winner between two eligible channels by the wait limit step; none where neither is past its limit (R69). -/
def limitWinner (s : State) : Option Chan :=
  match pastLimit s .a, pastLimit s .b with
  | true, false => some .a
  | false, true => some .b
  | false, false => none
  | true, true =>
    if (s.view .b).wait < (s.view .a).wait then some .a
    else if (s.view .a).wait < (s.view .b).wait then some .b
    else some (peer s.arb.gLast)

/-- The winner by the usage comparison (R70). -/
def usageWinner (s : State) : Chan :=
  let pA := s.arb.usage.a * (paramsFor s .b).w
  let pB := s.arb.usage.b * (paramsFor s .a).w
  if pA < pB then .a else if pB < pA then .b else peer s.arb.gLast

/-- The arbiter enters OWNED for a channel: the record goes, the view is given its grant start (R35, R71, R72). -/
def enterOwned (c : Chan) (s : State) : State :=
  headAtGrantStart c
    (setView c { s.view c with st := .positioned, idle := 0 }
      { s with arb := { s.arb with st := .owned c, request := s.arb.request.set c none, awaited := none } })

/-- The arbiter has a seek made for channel X: the awaited cylinder and the request to Positioner Control (R71). -/
def seekFor (cyl : Nat) (s : State) : State :=
  askSeek cyl { s with arb := { s.arb with awaited := some cyl } }

/-- The values a decision for a channel sets (R71 steps 1 to 3). -/
def grantBegun (c : Chan) (s : State) : State :=
  { s with arb := { s.arb with stamp := some s.uptime, held := 0, gLast := c, budget := (paramsFor s c).t,
                               clock := 0, releasePending := false } }

/-- A decision names a channel (R71). -/
def grantTo (c : Chan) (s : State) : State :=
  match s.arb.request.get c with
  | none => s
  | some p =>
    let s1 := grantBegun c s
    if s.pos.cyl = some p.cyl then enterOwned c s1
    else seekFor p.cyl { s1 with arb := { s1.arb with st := .claimed c .fresh } }

/-- A decision grants the oldest internal request (R81). -/
def grantInternal (s : State) : State :=
  let s1 : State := { s with arb := { s.arb with st := .internal } }
  if s.pos.cyl = some 0 then beginTransfer s1 else seekFor 0 s1

/-- A channel that won under the wait limit step raises E25 (R69, R89). -/
def grantByLimit (c : Chan) (s : State) : State :=
  grantTo c (raiseFor c .waitLimitGrant .absent (s.view c).wait s)

/-- The grant decision: taken in FREE; nothing changes where nobody waits (R68). -/
def decideGrant (s : State) : State :=
  if s.arb.st = .free then
    if !s.arb.queue.isEmpty then grantInternal s
    else
      match s.arb.request.a, s.arb.request.b with
      | none, none => s
      | some _, none => grantTo .a s
      | none, some _ => grantTo .b s
      | some _, some _ =>
        match limitWinner s with
        | some c => grantByLimit c s
        | none => grantTo (usageWinner s) s
  else s

/-! ## Ends of grants and claims -/

/-- The usage counts after a held time is charged to a channel: saturation, then halving (R86). -/
def chargedUsage (u : Pair Nat) (c : Chan) (h : Nat) : Pair Nat :=
  let v := u.set c (min 65535 (u.get c + h))
  if 32768 ≤ v.a ∨ 32768 ≤ v.b then ⟨v.a / 2, v.b / 2⟩ else v

/-- The held time charged to a channel (R86). -/
def charge (c : Chan) (s : State) : State :=
  { s with arb := { s.arb with usage := chargedUsage s.arb.usage c s.arb.held } }

/-- The arbiter passes to FREE with the values of a grant end, and a decision follows (R80 steps 3 and 4). -/
def toFree (s : State) : State :=
  decideGrant { s with arb := { s.arb with st := .free, awaited := none, stamp := none, clock := 0,
                                           releasePending := false } }

/-- The causes of a grant end in OWNED (R80). -/
inductive EndCause where
  | release | budget | reseek | giveUp | driveFault
  deriving DecidableEq, Repr

/-- The view of a grant that ends: from POSITIONED to STANDBY with its target kept (R36). -/
def viewGrantEnd (c : Chan) (s : State) : State :=
  if (s.view c).st = .positioned then setViewState c .standby s else s

/-- A grant ended by budget gives PREEMPTED and raises E24 with the held time (R79, R89). -/
def preempt (c : Chan) (s : State) : State :=
  raiseFor c .budgetPreemption .absent s.arb.held (giveCause c .preempted s)

/-- A grant of channel X ends in OWNED(X): charge, view, reset, decision (R80). Every cause here is charged (R87). -/
def grantEnd (c : Chan) (cause : EndCause) (s : State) : State :=
  let s1 := charge c s
  let s2 := if cause = .budget then preempt c s1 else s1
  let s3 := if cause = .reseek ∨ cause = .giveUp then s2 else viewGrantEnd c s2
  toFree (headAtGrantEnd c s3)

/-- The owner's view has left POSITIONED or TRANSFERRING on its own account: the grant ends, charged, and by the
budget if release-pending was set (R75, R79). The view has its new state already. -/
def giveUp (c : Chan) (s : State) : State :=
  if s.arb.st = .owned c then
    (if s.arb.releasePending then
      toFree (headAtGrantEnd c (preempt c (charge c s)))
     else grantEnd c .giveUp s)
  else s

/-- A claim ends: a continuing one that was withdrawn is charged, the held seek request is discarded, a decision
follows (R73, R74, R91). -/
def claimEnd (c : Chan) (charged : Bool) (s : State) : State :=
  toFree (headAtGrantEnd c
    { (if charged then charge c s else s) with pos := { s.pos with held := none } })

/-! ## The release comparison -/

/-- The owner's idle count compared with its L while another requester waits; at L the grant ends (R77). -/
def judgeRelease (s : State) : State :=
  match s.arb.st with
  | .owned x =>
    match s.map.params x with
    | some p => if otherWaits s x && decide (p.l ≤ (s.view x).idle) then grantEnd x .release s else s
    | none => s
  | _ => s

/-- Waiting ended while the arbiter is OWNED: the budget clock is set to 0 and release-pending cleared (R78, R79). -/
def waitingEnded (s : State) : State :=
  { s with arb := { s.arb with clock := 0, releasePending := false } }

/-! ## Requests of the channels -/

/-- The owner re-seeks: the grant continues as a claim, or ends where another waits (R76). -/
def reseek (c : Chan) (p : Place) (s : State) : State :=
  if otherWaits s c then grantEnd c .reseek s
  else seekFor p.cyl { s with arb := { s.arb with st := .claimed c .continuing } }

/-- The target of a claim whose seek request is held and not begun changes: the held request is replaced (R91,
log 15). -/
def retargetHeld (p : Place) (s : State) : State :=
  if s.pos.held.isSome then
    { s with pos := { s.pos with held := some p.cyl }, arb := { s.arb with awaited := some p.cyl } }
  else s

/-- A channel's request arrives at the arbiter with its place (R65). -/
def requestArrives (c : Chan) (p : Place) (s : State) : State :=
  let s1 : State := { s with arb := { s.arb with request := s.arb.request.set c (some p) } }
  match s.arb.st with
  | .free => decideGrant s1
  | .claimed x _ => if x = c then retargetHeld p s1 else s1
  | .owned x => if x = c then reseek c p s1 else if otherWaits s x then s1 else judgeRelease s1
  | .internal => s1
  | .halted => s1

/-- A channel's record removed; waiting may end with it (R65, R66). -/
def removeRequest (c : Chan) (s : State) : State :=
  let s1 : State := { s with arb := { s.arb with request := s.arb.request.set c none } }
  match s.arb.st with
  | .owned x => if otherWaits s x && !otherWaits s1 x then waitingEnded s1 else s1
  | _ => s1

/-- A view has left REQUESTING: its request is withdrawn. A claim whose seek is in flight waits for the outcome; one
whose seek request is held and not begun ends at once (R65, R73, R91). -/
def withdrawRequest (c : Chan) (s : State) : State :=
  let s1 := removeRequest c s
  match s.arb.st with
  | .claimed x k =>
    if x = c && s.pos.held.isSome then claimEnd c (decide (k = .continuing)) s1 else s1
  | _ => s1

/-! ## Internal requests -/

/-- An internal request is refused: two entries of other kinds are held (R67). -/
def internalRefused (k : InternalKind) (s : State) : Bool :=
  !s.arb.queue.contains k && decide (2 ≤ s.arb.queue.length)

/-- An internal request that is not refused: merged with its entry, or queued; a decision in FREE, and the release
comparison where waiting begins (R66, R67, R77). -/
def internalArrives (k : InternalKind) (s : State) : State :=
  if s.arb.queue.contains k then s
  else
    let s1 : State := { s with arb := { s.arb with queue := s.arb.queue ++ [k] } }
    match s.arb.st with
    | .free => decideGrant s1
    | .owned x => if otherWaits s x then s1 else judgeRelease s1
    | .claimed _ _ => s1
    | .internal => s1
    | .halted => s1

/-- The transfer in hand ends or has failed: its entry leaves the queue, the arbiter passes to FREE, a decision
follows; no charge (R81, R82). -/
def internalEnds (s : State) : State :=
  let s1 : State := discardHeads .mapStore
    { s with arb := { s.arb with st := .free, awaited := none, queue := s.arb.queue.tail },
             map := { s.map with xfer := .none } }
  decideGrant s1

end Sys2Proof.Machine
end

