-- ==== Sys2Proof/Machine/InterlockOps.lean ====
section
/-! DEFINITION. The Interlock Unit's operations: the deferral test (R123), release from deferral (R125), removals and
chain stamps (R118), the report of a full SHARED write (R119, R124), the time comparisons (R121, R122), pruning (R128). -/

namespace Sys2Proof.Machine

/-- An entry holds a place (07 7.1). -/
def Entry.holds (e : Entry) (p : Place) : Bool := decide (e.vol = p.vol) && decide (e.cyl = p.cyl)

/-- A place is held by an entry of a channel. -/
def heldBy (s : State) (holder : Chan) (p : Place) : Bool :=
  s.ilock.list.any fun e => decide (e.holder = holder) && e.holds p

/-- A channel's view is blocked: an entry of the peer holds its target's place (07 7.1). -/
def blocked (s : State) (c : Chan) : Bool :=
  match (s.view c).place with
  | some p => heldBy s (peer c) p
  | none => false

/-- A channel's deferred request set or removed. -/
def setDeferred (c : Chan) (p : Option Place) (s : State) : State :=
  { s with ilock := { s.ilock with deferred := s.ilock.deferred.set c p } }

/-- A request that is let through: the view in REQUESTING, its deferred request removed, the arbiter told (R65, R123). -/
def letThrough (c : Chan) (s : State) : State :=
  let s1 := setDeferred c none (setViewState c .requesting s)
  match (s.view c).place with
  | some p => requestArrives c p s1
  | none => s1

/-- The release test of a channel's view, made where entries of its peer were removed: a DEFERRED view that is no
longer blocked goes to REQUESTING; one still blocked takes the place it is now blocked on (R125). -/
def releaseTest (c : Chan) (s : State) : State :=
  if (s.view c).st = .deferred then
    if blocked s c then setDeferred c (s.view c).place s else letThrough c s
  else s

/-- A chain stamp is present only while its holder has an entry (07 7.1, R118). -/
def keepChain (list : List Entry) (c : Chan) (stamp : Option Stamp) : Option Stamp :=
  if list.any (fun e => decide (e.holder = c)) then stamp else none

/-- The entries that satisfy a test removed, with the chain stamps of holders left without any. -/
def Interlock.remove (u : Interlock) (test : Entry → Bool) : Interlock :=
  let list := u.list.filter fun e => !test e
  { u with list := list, chain := ⟨keepChain list .a u.chain.a, keepChain list .b u.chain.b⟩ }

/-- Some entry of a holder satisfies a test. -/
def anyEntryOf (s : State) (holder : Chan) (test : Entry → Bool) : Bool :=
  s.ilock.list.any fun e => decide (e.holder = holder) && test e

/-- Entries removed, and the release tests of the views whose peer lost entries (R125). -/
def removeEntries (test : Entry → Bool) (s : State) : State :=
  let s1 : State := { s with ilock := s.ilock.remove test }
  let s2 := if anyEntryOf s .b test then releaseTest .a s1 else s1
  if anyEntryOf s .a test then releaseTest .b s2 else s2

/-- Every entry of a channel removed (R121, R127). -/
def removeChain (c : Chan) (s : State) : State := removeEntries (fun e => decide (e.holder = c)) s

/-- The entries of a channel. -/
def entriesOf (s : State) (c : Chan) : List Entry := s.ilock.list.filter fun e => decide (e.holder = c)

/-! ## The report of a full SHARED write (R119) -/

/-- A count of full writes: it stops at 65535. -/
def extendEntry (p : Place) (now : Stamp) (c : Chan) (e : Entry) : Entry :=
  if e.holder = c ∧ e.holds p = true then { e with last := now, sectors := countUp 65535 e.sectors } else e

/-- The oldest entry of a channel is removed to make room, with E23 (R119, R129). -/
def overflowOldest (c : Chan) (s : State) : State :=
  match entriesOf s c with
  | [] => s
  | old :: _ =>
    removeEntries (fun e => decide (e.holder = c) && e.holds ⟨old.vol, old.cyl⟩)
      (raiseFor c .interlockOverflow (placeAddr old.vol old.cyl) old.sectors s)

/-- A chain stamp set. -/
def setChain (c : Chan) (t : Stamp) (s : State) : State :=
  { s with ilock := { s.ilock with chain := s.ilock.chain.set c (some t) } }

/-- A new entry appended, and a REQUESTING peer whose target is on its place deferred (R119, R124). An older entry on
that view's place defers nobody here. -/
def appendEntry (c : Chan) (p : Place) (s : State) : State :=
  let s1 : State := { s with ilock := { s.ilock with
    list := s.ilock.list ++ [⟨c, p.vol, p.cyl, s.uptime, s.uptime, 1⟩] } }
  let y := peer c
  if (s1.view y).st = .requesting ∧ (s1.view y).place = some p then
    withdrawRequest y (setDeferred y (some p) (setViewState y .deferred s1))
  else s1

/-- A full write of channel X into SHARED space is reported (R119, R120). -/
def fullSharedWrite (c : Chan) (p : Place) (s : State) : State :=
  if heldBy s c p then
    setChain c s.uptime { s with ilock := { s.ilock with list := s.ilock.list.map (extendEntry p s.uptime c) } }
  else if heldBy s (peer c) p then
    (if (entriesOf s c).isEmpty then s else setChain c s.uptime s)
  else if (entriesOf s c).length < 4 then appendEntry c p (setChain c s.uptime s)
  else appendEntry c p (setChain c s.uptime (overflowOldest c s))

/-! ## The time comparisons -/

/-- An entry is at least M ticks old (R122). -/
def agedOut (now : Stamp) (m : Nat) (e : Entry) : Bool := decide (m ≤ elapsed now e.first)

/-- A chain is at least C ticks quiet (R121). -/
def chainQuiet (now : Stamp) (limit : Nat) (stamp : Option Stamp) : Bool :=
  match stamp with
  | some t => decide (limit ≤ elapsed now t)
  | none => false

/-- One entry removed by age, with E22 (R122, R129). -/
def ageOne (e : Entry) (s : State) : State :=
  removeEntries (fun x => x.holds ⟨e.vol, e.cyl⟩)
    (raise (.sole .interlockAgedOut) (some e.holder) (placeAddr e.vol e.cyl) e.sectors s)

/-- A list in an order that the free values pick; the counter of values drawn is `k` (log 3, log 31). -/
def permuted {α : Type} : Nat → Nat → List α → List α
  | 0, _, l => l
  | fuel + 1, k, l =>
    match l with
    | [] => []
    | [x] => [x]
    | x :: y :: rest =>
      let i := Config.pick k % (rest.length + 2)
      ((x :: y :: rest)[i]?.getD x) :: permuted fuel (k + 1) ((x :: y :: rest).eraseIdx i)

/-- Several entries that age out at one comparison, each removed with E22, in the order the world gives (R122, R155). -/
def ageOut (test : Entry → Bool) (s : State) : State :=
  match s.map.chainLimits with
  | none => s
  | some (_, m) =>
    let due := s.ilock.list.filter fun e => test e && agedOut s.uptime m e
    (permuted due.length s.free due).foldl (fun s e => ageOne e s)
      { s with free := if due.length ≤ 1 then s.free else s.free + due.length }

/-- The chain of a channel compared with C: at C it ends (R121). -/
def endChain (c : Chan) (s : State) : State :=
  match s.map.chainLimits with
  | none => s
  | some (limit, _) => if chainQuiet s.uptime limit (s.ilock.chain.get c) then removeChain c s else s

/-- An entry lies in a SHARED extent of its holder (R128). -/
def inSharedExtent (m : MapStore) (e : Entry) : Bool :=
  spanHas (m.extents e.holder) e.vol e.cyl fun k => decide (k = .shared)

/-- The Interlock Unit at a map activation: pruning, then the comparisons, the age comparison first (R122, R128). -/
def pruneInterlocks (s : State) : State :=
  let s1 := removeEntries (fun e => !inSharedExtent s.map e) s
  endChain .b (endChain .a (ageOut (fun _ => true) s1))

end Sys2Proof.Machine
end

