-- ==== Sys2Proof/Machine/ViewOps.lean ====
section
/-! DEFINITION. The channel view's operations: translation (R22, R49), requests and their passage (R23, R123, R126),
leaving for STANDBY or FAULTED (R24, R30), the drive becoming unusable and usable (R37), a map activation (R38). -/

namespace Sys2Proof.Machine

/-- The outcome of a translation (R22). -/
inductive Translation where
  | unusable
  | unmapped
  | mapped (t : Target)
  deriving DecidableEq, Repr

/-- A translation made by a view for a logical cylinder, against a volume (R22, R49). -/
def translate (s : State) (c : Chan) (v : Vol) (cyl : Nat) : Translation :=
  if !usableVol s v then .unusable
  else if 407 < cyl then .unmapped
  else
    match lookup (s.map.extents c) v cyl with
    | none => .unmapped
    | some e =>
      match classOf e.code with
      | some k => .mapped ⟨cyl, e.ps + (cyl - e.ls), k, e.permit⟩
      | none => .unmapped

/-- A view holds a target. -/
def setTarget (c : Chan) (t : Target) (s : State) : State := setView c { s.view c with target := some t } s

/-- What the arbiter and the Interlock Unit take when a view leaves a state for STANDBY, NOT READY, FAULTED or
DETACHED: a request withdrawn, or a grant given up (R23, R75); `old` is the state left. -/
def leave (c : Chan) (old : ViewState) (s : State) : State :=
  match old with
  | .requesting => withdrawRequest c s
  | .deferred => setDeferred c none s
  | .positioned => giveUp c s
  | .transferring => giveUp c s
  | .detached => s
  | .notReady => s
  | .standby => s
  | .faulted => s

/-- The view goes to STANDBY with SEEK ERROR set and no target (R24). -/
def standbySeekError (c : Chan) (s : State) : State :=
  let old := (s.view c).st
  leave c old (setView c { (s.view c).seekFailed with st := .standby } s)

/-! ## Requests -/

/-- A channel whose request is deferred while its peer is DEFERRED yields: its entries go, with E21, and the peer is
released (R126). -/
def yieldTo (c : Chan) (s : State) : State :=
  let p := (s.view c).place.getD ⟨.f, 0⟩
  removeChain c (raiseFor c .interlockYield (placeAddr p.vol p.cyl) (entriesOf s c).length s)

/-- The wait count at a request: from 0 out of STANDBY or POSITIONED, running on otherwise (R43). -/
def View.waitAtRequest (v : View) : Nat :=
  match v.st with
  | .standby => 0
  | .positioned => 0
  | _ => v.wait

/-- A request deferred: the view in DEFERRED, the record withdrawn or the grant given up, then the yield test
(R123, R126). -/
def deferRequest (c : Chan) (s : State) : State :=
  let old := (s.view c).st
  let yields := decide ((s.view (peer c)).st = .deferred)
  let s1 := setDeferred c (s.view c).place
    (setView c { s.view c with st := .deferred, wait := (s.view c).waitAtRequest } s)
  let s2 :=
    match old with
    | .requesting => withdrawRequest c s1
    | .positioned => giveUp c s1
    | _ => s1
  if yields then yieldTo c s2 else s2

/-- A view makes a request for its target: deferred where an entry of the peer holds the place, let through otherwise
(R23, R123). -/
def makeRequest (c : Chan) (s : State) : State :=
  if blocked s c then deferRequest c s
  else letThrough c (setView c { s.view c with wait := (s.view c).waitAtRequest } s)

/-! ## Faults -/

/-- A view enters FAULTED with a cause: the channel's entries go and the grant is given up (R30, R127). A view already
FAULTED takes no second fault. -/
def enterFaulted (c : Chan) (cause : FaultCause) (s : State) : State :=
  let old := (s.view c).st
  if old = .faulted then s
  else
    removeChain c (leave c old (setView c { s.view c with st := .faulted, fault := cause } s))

/-! ## The drive becoming unusable and usable -/

/-- One view at the drive becoming unusable: NOT READY, its fault cause cleared, its request withdrawn or its grant
given up without a charge (R37, R84). The arbiter has been halted. -/
def viewUnusable (c : Chan) (s : State) : State :=
  if (s.view c).st = .detached then s
  else
    setDeferred c none
      (setView c { s.view c with st := .notReady, fault := .none }
        { s with arb := { s.arb with request := s.arb.request.set c none } })

/-- The views that enter NOT READY, neither DETACHED nor there already (R127). -/
def entersNotReady (s : State) (c : Chan) : Bool :=
  decide ((s.view c).st ≠ .detached) && decide ((s.view c).st ≠ .notReady)

/-- Every view not DETACHED goes to NOT READY; each holder's entries go as its view enters NOT READY (R37, R127). -/
def viewsUnusable (s : State) : State :=
  let s1 := viewUnusable .b (viewUnusable .a s)
  removeEntries (fun e => entersNotReady s e.holder) s1

/-- The same at a spin-down: the entries on volume R go, of both holders, and those on F are kept (R127). -/
def viewsSpunDown (s : State) : State :=
  removeEntries (fun e => decide (e.vol = .r)) (viewUnusable .b (viewUnusable .a s))

/-- A view whose target is translated again against the active map, with no event: kept with its new place, or
removed with SEEK ERROR (R37, R38). -/
def retranslated (s : State) (c : Chan) (v : View) : View :=
  match v.target with
  | none => v
  | some t =>
    match translate s c v.sel.vol t.logical with
    | .mapped t' => { v with target := some t' }
    | .unusable => v.seekFailed
    | .unmapped => v.seekFailed

/-- One view at the drive becoming usable (R37). -/
def viewUsable (c : Chan) (s : State) : State :=
  let v := s.view c
  if v.st = .notReady then setView c (retranslated s c { v with st := .standby }) s else s

/-- The drive becomes usable: every view in NOT READY goes to STANDBY (R37). -/
def viewsUsable (s : State) : State := viewUsable .b (viewUsable .a s)

/-! ## A map activation -/

/-- One view at a map activation (R38). -/
def viewAtActivation (c : Chan) (s : State) : State :=
  let v := s.view c
  match v.st, v.target with
  | .standby, some _ => setView c (retranslated s c v) s
  | .faulted, some _ => setView c (retranslated s c v) s
  | .requesting, some t =>
    match translate s c v.sel.vol t.logical with
    | .mapped t' => if t'.physical = t.physical then setTarget c t' s else makeRequest c (setTarget c t' s)
    | _ => standbySeekError c s
  | .deferred, some t =>
    match translate s c v.sel.vol t.logical with
    | .mapped t' => if t'.physical = t.physical then setTarget c t' s else makeRequest c (setTarget c t' s)
    | _ => standbySeekError c s
  | .positioned, some t =>
    match translate s c v.sel.vol t.logical with
    | .mapped t' =>
      if t'.physical = t.physical then setTarget c t' s
      else leave c .positioned (setViewState c .standby (setTarget c t' s))
    | _ => standbySeekError c s
  | _, _ => s

/-- A view that may make a request at an activation. -/
def View.mayRequest (v : View) : Bool := decide (v.st = .requesting ∨ v.st = .deferred) && v.target.isSome

/-- Both views at a map activation. Where both may make a request the order is the world's (R38, R126, log 22). -/
def viewsAtActivation (s : State) : State :=
  if (s.view .a).mayRequest && (s.view .b).mayRequest then
    let s1 : State := { s with free := s.free + 1 }
    if Config.viewBFirst s.free then viewAtActivation .a (viewAtActivation .b s1)
    else viewAtActivation .b (viewAtActivation .a s1)
  else viewAtActivation .b (viewAtActivation .a s)

end Sys2Proof.Machine
end

