-- ==== Sys2Proof/Machine/MailboxOps.lean ====
section
/-! DEFINITION. The Mailbox Unit's operations: posting and the sequence check (R132 to R135), consumption (R136), the
question "is slot s POSTED" (R138), clearing at an activation (R139), the MAILBOX NOTICE cause (R42). -/

namespace Sys2Proof.Machine

/-- A slot is POSTED (R138). -/
def posted (s : State) (slot : Fin 24) : Bool := s.mbox.slots[slot].isSome

/-- The address of a slot: volume F, the mailbox cylinder, head 0, the sector (R140). -/
def slotAddr (cyl : Nat) (slot : Fin 24) : PartAddr := ⟨some .f, some cyl, some .h0, some slot⟩

/-- A channel's notice list replaced, and its view's MAILBOX NOTICE present exactly while it is non-empty, DETACHED
included (R42). -/
def setNotice (c : Chan) (l : List (Fin 24)) (s : State) : State :=
  setView c { s.view c with causes := { (s.view c).causes with mailboxNotice := !l.isEmpty } }
    { s with mbox := { s.mbox with notice := s.mbox.notice.set c l } }

/-- A sequence number differs from a set expectation (R134). -/
def sequenceGap (expected : Option (BitVec 8)) (q : BitVec 8) : Bool :=
  match expected with
  | some e => decide (q ≠ e)
  | none => false

/-- E26, where the sequence check finds a gap (R134, R140). -/
def raiseGap (c : Chan) (cyl : Nat) (slot : Fin 24) (q : BitVec 8) (s : State) : State :=
  match s.mbox.expected.get c with
  | some e => if q = e then s else raiseFor c .mailboxSequenceGap (slotAddr cyl slot) (detailE26 q e) s
  | none => s

/-- A slot's posting record, and the sender's next expectation (R133 steps 2 and 4). -/
def postSlot (c : Chan) (slot : Fin 24) (q : BitVec 8) (s : State) : State :=
  { s with mbox := { s.mbox with
      slots := s.mbox.slots.set slot (some ⟨c, q, sequenceGap (s.mbox.expected.get c) q, s.uptime⟩),
      expected := s.mbox.expected.set c (some (q + 1#8)) } }

/-- A full write with destination PEER is posted (R133). The slot is FREE at every report; a report that found it
POSTED would post nothing. -/
def postMessage (c : Chan) (cyl : Nat) (slot : Fin 24) (q : BitVec 8) (s : State) : State :=
  if posted s slot then s
  else
    let s1 := postSlot c slot q (raiseGap c cyl slot q s)
    setNotice (peer c) (s1.mbox.notice.get (peer c) ++ [slot]) s1

/-- A full-write report from a channel for a slot, with its routing word (R132, R135). -/
def mailboxWrite (c : Chan) (cyl : Nat) (slot : Fin 24) (routing : Word) (s : State) : State :=
  match destination routing with
  | .keep => s
  | .toPeer => postMessage c cyl slot (sequenceOf routing) s
  | .unrouted => raiseFor c .mailboxUnrouted (slotAddr cyl slot) routing.toNat s

/-- A full-read report from a channel for a slot, without CHECK ERROR: consumed where it stands in the channel's
notice list (R136). -/
def mailboxRead (c : Chan) (slot : Fin 24) (s : State) : State :=
  if posted s slot && (s.mbox.notice.get c).contains slot then
    setNotice c ((s.mbox.notice.get c).erase slot)
      { s with mbox := { s.mbox with slots := s.mbox.slots.set slot none } }
  else s

/-- The expectation from a channel unset (R40, R130). -/
def unsetExpected (c : Chan) (s : State) : State :=
  { s with mbox := { s.mbox with expected := s.mbox.expected.set c none } }

/-- The mailbox cleared: every slot FREE, both lists empty, both expectations unset, both causes gone (R139). -/
def clearMailbox (s : State) : State :=
  setNotice .b [] (setNotice .a [] { s with mbox := .initial })

/-- The mailbox at an activation: kept on the same cylinder, cleared otherwise (R139); `old` is the mailbox cylinder of
the map replaced. -/
def mailboxAtActivation (old : Option Nat) (s : State) : State :=
  if s.map.mailboxCylinder = old then s else clearMailbox s

end Sys2Proof.Machine
end

