-- ==== Sys2Proof/Machine/RelayOps.lean ====
section
/-! DEFINITION. The Gate and Relay Unit's operations: classification and checks (R105, R107), passing a gate (R106,
R108), the torn sector list (R114 to R116), the end of a gate (R109) and the cuts (R29, R39, R110 to R113). -/

namespace Sys2Proof.Machine

/-! ## A gate handed to the unit -/

/-- The rise falls inside the header window, which runs until 120 microseconds after the sector start (R7, log 5). -/
def inHeaderWindow (sinceStart : Nat) : Bool := decide (sinceStart < 120)

/-- The kind of a gate from its line and the header window (R105). -/
def classify : GateLine → Bool → GateKind
  | .read, _ => .read
  | .write, true => .formatWrite
  | .write, false => .dataWrite

/-- The gate of a channel is held: Drive Watch in SUPPLY HOLD, the owner's pending head selection present, or a HEAD order
of the relay's for this view unacknowledged at the drive port, one left over from its ended grant among them (R32, R105;
log 50). -/
def gateHeld (s : State) (c : Chan) : Bool :=
  decide (s.watch.st = .supplyHold) || s.relay.headPending.isSome || headAwaited s c

/-- The address of a gate of a view with a target (R105). -/
def gateAddr (s : State) (v : View) (t : Target) : Addr := ⟨v.sel.vol, t.physical, v.sel.head, s.watch.sector⟩

/-- The number of the first check that suppresses a write; none where it passes (R107). -/
def writeCheck (s : State) (v : View) (t : Target) (kind : GateKind) : Option Nat :=
  if t.cls = .readOnly then some 1
  else if s.drive.prot v.sel.vol then some 2
  else if t.cls = .mailbox ∧ v.sel.head = .h1 then some 3
  else if t.cls = .mailbox ∧ v.sel.head = .h0 ∧ posted s s.watch.sector = true then some 4
  else if kind = .formatWrite ∧ (t.cls = .readWrite ∨ t.cls = .shared) ∧ t.permit = false then some 5
  else none

/-- The record of a gate that is passed (06 6.1, R106, R108). -/
def newGate (s : State) (c : Chan) (v : View) (t : Target) (kind : GateKind) (window : Bool) : GateRecord :=
  { chan := c, kind := kind, inWindow := window, addr := gateAddr s v t, cls := t.cls, dataStarted := false,
    words := 0, checkWord := false, firstWord := none, checkError := false }

/-- A gate passed: its record, its line up at the drive port, the view in TRANSFERRING (R32, R106, R108). -/
def passGate (c : Chan) (t : Target) (kind : GateKind) (window : Bool) (s : State) : State :=
  let v := s.view c
  setViewState c .transferring
    { s with relay := { s.relay with gate := some (newGate s c v t kind window) },
             drive := { s.drive with readGate := decide (kind = .read), writeGate := decide (kind ≠ .read) } }

/-- A write suppressed by a check: E2 or E3, and the view faulted (R30, R107, R117). -/
def suppressWrite (c : Chan) (t : Target) (kind : GateKind) (check : Nat) (s : State) : State :=
  let address := (gateAddr s (s.view c) t).whole
  if check = 5 then
    enterFaulted c .formatRefused (raiseFor c .formatRefused address (detailE2 kind check) s)
  else
    enterFaulted c .protectedWrite (raiseFor c .protectedWrite address (detailE2 kind check) s)

/-- A gate that arrives while the view is POSITIONED: held, suppressed or passed (R32, R105 to R108). -/
def handGate (c : Chan) (line : GateLine) (sinceStart : Nat) (s : State) : State :=
  if gateHeld s c then s
  else
    match (s.view c).target with
    | none => s
    | some t =>
      let window := inHeaderWindow sinceStart
      let kind := classify line window
      if kind = .read then passGate c t kind window s
      else
        match writeCheck s (s.view c) t kind with
        | some n => suppressWrite c t kind n s
        | none => passGate c t kind window s

/-! ## The torn sector list -/

/-- The list without the entry of an address (R114, R116). -/
def withoutAddr (l : List TornEntry) (x : Addr) : List TornEntry := l.filter fun e => decide (e.addr ≠ x)

/-- The torn list replaced. -/
def setTorn (l : List TornEntry) (s : State) : State := { s with relay := { s.relay with torn := l } }

/-- A full write takes its address off the list (R116). -/
def mendSector (x : Addr) (s : State) : State := setTorn (withoutAddr s.relay.torn x) s

/-- A new entry joins the list: replacing its address, into room, or over the oldest with E8 (R114). -/
def addTorn (e : TornEntry) (s : State) : State :=
  let kept := withoutAddr s.relay.torn e.addr
  match kept with
  | old :: rest =>
    if 4 ≤ kept.length then
      setTorn (rest ++ [e]) (raiseSole .tornListOverflow old.addr.whole (detailE8 old) s)
    else setTorn (kept ++ [e]) s
  | [] => setTorn [e] s

/-- The peer's table has the torn sector in SHARED or MAILBOX space (R115). -/
def peerShares (s : State) (c : Chan) (x : Addr) : Bool :=
  spanHas (s.map.extents (peer c)) x.vol x.cyl fun k => decide (k = .shared ∨ k = .mailbox)

/-- A channel's write is torn: the entry, E7, and PEER TORN WRITE where the peer shares the sector (R114, R115). -/
def tearWrite (g : GateRecord) (cause : TearCause) (s : State) : State :=
  let s1 := addTorn ⟨g.addr, .chan g.chan, cause, s.uptime⟩ s
  let s2 := raiseFor g.chan .tornSector g.addr.whole (detailE7 cause g.words) s1
  if peerShares s2 g.chan g.addr then giveCause (peer g.chan) .peerTornWrite s2 else s2

/-! ## The end of a gate -/

/-- Step 3 of R109: a full write in SHARED space is reported to the Interlock Unit. -/
def reportInterlock (g : GateRecord) (s : State) : State :=
  if g.kind ≠ .read ∧ g.checkWord = true ∧ g.cls = .shared then fullSharedWrite g.chan ⟨g.addr.vol, g.addr.cyl⟩ s
  else s

/-- Step 4 of R109: full writes, and full reads without CHECK ERROR, on head 0 of the mailbox cylinder are reported to
the Mailbox Unit (R131). -/
def reportMailbox (g : GateRecord) (s : State) : State :=
  if g.cls = .mailbox ∧ g.addr.head = .h0 ∧ g.checkWord = true then
    (if g.kind = .read then
      (if g.checkError then s else mailboxRead g.chan g.addr.sector s)
     else
      match g.firstWord with
      | some routing => mailboxWrite g.chan g.addr.cyl g.addr.sector routing s
      | none => s)
  else s

/-- Steps 1 and 2 of R109: the judgement, and the torn list. -/
def judgeGate (g : GateRecord) (cause : TearCause) (s : State) : State :=
  if g.kind = .read then s
  else if g.checkWord then mendSector g.addr s
  else tearWrite g cause s

/-- The data a passed gate carried, on WRITE DATA at the drive port or READ DATA at the owner's port (R12, R106,
R108). -/
def relayData (g : GateRecord) (w : Carried) (s : State) : State :=
  if g.kind = .read then
    let logical := (((s.view g.chan).target).map (·.logical)).getD 0
    setPort g.chan { s.port g.chan with readData := readDataRelayed g logical w } s
  else { s with drive := { s.drive with writeData := writeDataSent g w } }

/-- The end of a passed gate, by drop or cut, up to the view (R109 steps 1 to 4 and the record's removal): the gate
drops at the drive port. Nothing happens where no passed gate is active. -/
def endGate (cause : TearCause) (w : Carried) (s : State) : State :=
  match s.relay.gate with
  | none => s
  | some g0 =>
    let g := g0.carry w
    let s1 := dropDriveGates (relayData g w { s with relay := { s.relay with gate := none } })
    reportMailbox g (reportInterlock g (judgeGate g cause s1))

/-- The view of a gate that has dropped, or was cut with the view returning to POSITIONED: POSITIONED, and then the
end of a release-pending grant (R33, R79, R109 step 5, log 20). -/
def backToPositioned (c : Chan) (s : State) : State :=
  if (s.view c).st = .transferring then
    let s1 := setViewState c .positioned s
    if s1.arb.st = .owned c && s1.arb.releasePending then grantEnd c .budget s1 else s1
  else s

/-- The channel whose passed gate is active. -/
def activeChan (s : State) : Option Chan := s.relay.gate.map (·.chan)

/-- A passed gate ends with its view returning to POSITIONED (R33, R109, R111, R112). -/
def endGatePositioned (cause : TearCause) (w : Carried) (s : State) : State :=
  match activeChan s with
  | none => s
  | some c => backToPositioned c (idleToZero c (endGate cause w s))

/-- A gate overrun at a sector start (R110). -/
def overrun (w : Carried) (s : State) : State :=
  match s.relay.gate with
  | none => s
  | some g0 =>
    let g := g0.carry w
    enterFaulted g.chan .gateOverrun
      (raiseFor g.chan .gateOverrun g.addr.whole (detailE4 g.kind g.words) (endGate .gateOverrun w s))

/-- A CYLINDER or HEAD order during an active gate: the cut, the fault, E5 (R29). `kind` is its ORDER SELECT value. -/
def orderDuringGate (c : Chan) (kind : Nat) (w : Carried) (s : State) : State :=
  match s.relay.gate with
  | none => s
  | some g =>
    raiseFor c .orderDuringGate g.addr.whole kind
      (enterFaulted c .orderDuringGate (endGate .shortWrite w s))

/-! ## Internal gates -/

/-- The address of the map or label sector: cylinder 0, head 0, sector 0 (R58, R59). -/
def mapSector (v : Vol) : Addr := ⟨v, 0, .h0, 0⟩

/-- The words of the commit's image that an interrupted internal write has sent, on WRITE DATA (R14, R63). -/
def showInternalWrite (v : Vol) (w : Carried) (s : State) : State :=
  match s.map.commit with
  | some imgs =>
    { s with drive := { s.drive with writeData := (imgs.imageFor v).toList.take (wordsPassed w) } }
  | none => s

/-- An internal write that an event interrupts is judged at its drop: mended if full, otherwise torn with writer
INTERNAL, without E7 (R113, R114). The gate drops at the drive port (R60). -/
def cutInternal (cause : TearCause) (w : Carried) (s : State) : State :=
  match s.map.xfer with
  | .writing v =>
    let s1 := dropDriveGates (showInternalWrite v w s)
    if reachedCheckWord w then mendSector (mapSector v) s1
    else addTorn ⟨mapSector v, .internal, cause, s.uptime⟩ s1
  | .reading _ _ => dropDriveGates s
  | .none => s
  | .headOrder _ => s
  | .awaitSector _ => s
  | .window _ => s

end Sys2Proof.Machine
end

