-- ==== Sys2Proof/Machine/WatchOps.lean ====
section
/-! DEFINITION. Drive Watch's operations: halts and resume (R83, R85, R101), the read outcomes (R58, R59, R149), the
steps of start-up (R146), spin-down (R147), supply hold (R150, R151), DRIVE FAULT (R152), and the commit's failure and
activation (R167, R168). -/

namespace Sys2Proof.Machine

/-- The part with Drive Watch in a state. -/
def setWatchState (st : WatchState) (s : State) : State := { s with watch := { s.watch with st := st } }

/-! ## Failure of a commit -/

/-- A commit fails: E20, and the commit-in-flight mark cleared (R168). -/
def commitFails (detail : Nat) (addr : PartAddr) (s : State) : State :=
  if s.map.commit.isSome then
    raiseSole .mapCommitFailed addr detail { s with map := { s.map with commit := none } }
  else s

/-- The address of E20 where no sector is being written though one was (R168, log 23). -/
def freeSector (n : Nat) : PartAddr :=
  match Config.commitSector n with
  | 0 => .absent
  | 1 => (mapSector .f).whole
  | _ => (mapSector .r).whole

/-- The failure number of E20 where R168's table has no line for the case (log 23). -/
def freeFailure (n : Nat) : Nat := (Config.commitFailure n).val + 1

/-- A running MAP WRITE is failed by a spin-down, a removal at DRIVE FAULT (`removal`), or a drive FAULT while running,
unbidden change or withdrawn HEAD order (R60, R168). Before the first write gate of this making E20 gives no address, and
at no removal the number 5, though a supply hold have stopped an earlier making with its map sector full (log 45). -/
def runningCommitFails (removal : Bool) (w : Carried) (s : State) : State :=
  let drawn : State := { s with free := s.free + 1 }
  match s.map.xfer with
  | .writing v =>
    if !reachedCheckWord w then commitFails 4 (mapSector v).whole s
    else if removal then commitFails 3 (mapSector v).whole s
    else commitFails (freeFailure s.free) (mapSector v).whole drawn
  | .headOrder .r => commitFails (if removal then 3 else freeFailure s.free) (freeSector s.free) drawn
  | .awaitSector .r => commitFails (if removal then 3 else freeFailure s.free) (freeSector s.free) drawn
  | .window .r => commitFails (if removal then 3 else freeFailure s.free) (freeSector s.free) drawn
  | .headOrder .f => commitFails (if removal then 3 else 5) .absent s
  | .awaitSector .f => commitFails (if removal then 3 else 5) .absent s
  | .window .f => commitFails (if removal then 3 else 5) .absent s
  | .none => commitFails (if removal then 3 else 5) .absent s
  | .reading _ _ => commitFails (if removal then 3 else 5) .absent s

/-- The commit of a MAP WRITE that a halt removes from the queue, running or not (R83, R168). One that waits to be made
again after a supply hold gives no address, though its map sector may have been written in full before (log 45). -/
def removedCommitFails (w : Carried) (s : State) : State :=
  if s.arb.st = .internal ∧ s.arb.queue.head? = some .mapWrite then runningCommitFails true w s
  else if s.arb.queue.contains .mapWrite then commitFails 3 .absent s
  else s

/-- The internal transfer interrupted and every entry removed, as a halt by spin-down or DRIVE FAULT does (R60, R83,
R113). A removed read stays owed. -/
def emptyQueue (cause : TearCause) (w : Carried) (s : State) : State :=
  let s1 := removedCommitFails w (cutInternal cause w s)
  { s1 with arb := { s1.arb with queue := [] }, map := { s1.map with xfer := .none } }

/-! ## Halt and resume -/

/-- The arbiter halted: any grant, claim or transfer ends without a charge; the usage counts and G_last stay (R83). The
pending head selection and the relay's and Map Store's waiting HEAD orders go (R103, R104, log 17). -/
def haltArbiter (s : State) : State :=
  discardHeads .mapStore (discardHeads (.relay .b) (discardHeads (.relay .a)
    { s with arb := { s.arb with st := .halted, awaited := none, stamp := none, held := 0, clock := 0,
                                 releasePending := false },
             relay := { s.relay with headPending := none }, map := { s.map with xfer := .none } }))

/-- Positioner Control halted: its order withdrawn or discarded, its work abandoned, the position UNKNOWN (R90, R101). A
second halt in HALTED makes a last selection that a late HEAD acknowledgement has set none again (log 44). -/
def haltPositioner (s : State) : State :=
  let offered :=
    match s.drive.offered with
    | some o => if o.ofPositioner then none else some o
    | none => none
  offerNext
    { s with
      drive := { s.drive with offered := offered, waiting := s.drive.waiting.filter fun o => !o.ofPositioner },
      pos := { s.pos with cyl := none, lastSel := none, st := .halted, request := none, held := none,
                          retry := false, ticks := none } }

/-- A halt from Drive Watch (R83, R101). -/
def halt (s : State) : State := haltPositioner (haltArbiter s)

/-- Resume: from HALTED to FREE, and a decision (R85). -/
def resume (s : State) : State :=
  if s.arb.st = .halted then decideGrant { s with arb := { s.arb with st := .free } } else s

/-! ## Entering RUNNING, and the reads -/

/-- The staged images at the entry to RUNNING: both after a start-up, the label after a spin-up (R61, log 29). -/
def refreshStaged (s : State) : State :=
  let m := s.map
  { s with map := { m with stagedMap := if s.watch.startUp then m.activeMap else m.stagedMap,
                           stagedLabel := if s.watch.startUp || s.watch.spinUp then m.labelImage else m.stagedLabel },
           watch := { s.watch with startUp := false, spinUp := false } }

/-- The entry to RUNNING (R146, R148): staged images, pulse gap (R143), the drive usable where the map is VALID. -/
def enterRunning (s : State) : State :=
  let s1 := refreshStaged { s with watch := { s.watch with st := .running, gap := 0 } }
  if usable s1 then viewsUsable s1 else s1

/-- The outcome of an internal read: a valid image, or the reason it is refused, 0 for an unreadable sector. -/
inductive ReadResult where
  | valid (img : Image)
  | failed (reason : Nat)
  deriving DecidableEq, Repr

/-- The cartridge has changed (R149). -/
def cartridgeChanged (prior : Bool) (held : Option Image) : ReadResult → Bool
  | .valid img =>
    (match prior, held with
     | true, some old => !sameCartridge img old
     | _, _ => true)
  | .failed _ => prior

/-- The serial number in E16's detail: of the new label, or 0 (R149). -/
def ReadResult.serial : ReadResult → Nat
  | .valid img => imageWord img 1
  | .failed _ => 0

/-- The cartridge comparison, except at the first label read after power-on or restart (R149, log 13). -/
def compareCartridge (r : ReadResult) (s : State) : State :=
  if s.watch.labelReadDone && cartridgeChanged s.watch.priorValid s.map.heldLabel r then
    giveCause .b .cartridgeChanged (giveCause .a .cartridgeChanged
      (raiseSole .cartridgeChanged .absent r.serial s))
  else s

/-- A label read's outcome taken by the Map Store (R59). -/
def storeLabel (r : ReadResult) (s : State) : State :=
  match r with
  | .valid img => { s with map := { s.map with heldLabel := some img, labelState := .valid } }
  | .failed n =>
    raiseSole .labelInvalid (mapSector .r).whole n { s with map := { s.map with labelState := .unlabelled } }

/-- A label read's outcome: comparison, label state, label read no longer owed, RUNNING (R59, R146, R149). -/
def labelReadOutcome (r : ReadResult) (s : State) : State :=
  let s1 := storeLabel r (compareCartridge r s)
  let s2 : State := { s1 with watch := { s1.watch with labelOwed := false, labelReadDone := true } }
  if s2.watch.st = .readingLabel then enterRunning s2 else s2

/-- READING LABEL: the LABEL READ asked for; refused, it is unreadable (R67, R143, R146). -/
def enterReadingLabel (s : State) : State :=
  let s1 : State := { s with watch := { s.watch with st := .readingLabel, gap := 0 } }
  if internalRefused .labelRead s1 then labelReadOutcome (.failed 0) s1 else internalArrives .labelRead s1

/-- A map read's outcome taken by the Map Store (R58). -/
def storeMap (r : ReadResult) (s : State) : State :=
  match r with
  | .valid img => { s with map := { s.map with activeMap := img, mapState := .valid } }
  | .failed n =>
    raiseSole .mapInvalid (mapSector .f).whole n
      { s with map := { s.map with activeMap := .zero, mapState := .missing } }

/-- A map read's outcome: map state, map read no longer owed, READING LABEL (R58, R146). -/
def mapReadOutcome (r : ReadResult) (s : State) : State :=
  let s1 := storeMap r s
  let s2 : State := { s1 with watch := { s1.watch with mapOwed := false } }
  if s2.watch.st = .readingMap then enterReadingLabel s2 else s2

/-- READING MAP: the MAP READ asked for; refused, it is unreadable (R67, R143, R146). -/
def enterReadingMap (s : State) : State :=
  let s1 : State := { s with watch := { s.watch with st := .readingMap, gap := 0 } }
  if internalRefused .mapRead s1 then mapReadOutcome (.failed 0) s1 else internalArrives .mapRead s1

/-- The next step owed after a calibration (R146). -/
def nextStep (s : State) : State :=
  if s.watch.mapOwed then enterReadingMap s
  else if s.watch.labelOwed then enterReadingLabel s
  else enterRunning s

/-- The CALIBRATED outcome reaches Drive Watch: resume, and the next step owed (R100, R146). -/
def watchCalibrated (s : State) : State :=
  if s.watch.st = .calibrating then nextStep (resume s) else s

/-- CALIBRATING: a calibration asked for (R100, R146). -/
def enterCalibrating (s : State) : State := askCalibration (setWatchState .calibrating s)

/-! ## Spin-down -/

/-- Steps 1 to 3 of R147: prior label mark, label ABSENT, the R protection mark, label read owed, synchronised mark. -/
def markStopped (s : State) : State :=
  { s with
    watch := { s.watch with
      priorValid := (match s.map.labelState with
        | .valid => true
        | .unlabelled => false
        | .absent => s.watch.priorValid),
      labelOwed := true, sync := false, spinUp := true },
    map := { s.map with labelState := .absent },
    drive := { s.drive with protR := false } }

/-- SPUN DOWN, or SUPPLY HOLD at once out of DRIVE FAULT with the warning still accepted (R147 step 6, R153). -/
def enterSpunDown (s : State) : State :=
  if s.watch.st = .driveFault ∧ s.watch.warnAccepted = true then
    { s with watch := { s.watch with st := .supplyHold, spinOwed := true } }
  else setWatchState .spunDown s

/-- A spin-down (R113, R147). -/
def spinDown (w : Carried) (s : State) : State :=
  enterSpunDown (viewsSpunDown (halt (markStopped (emptyQueue .driveDropped w (endGate .driveDropped w s)))))

/-! ## Supply hold -/

/-- The halt that completes the entry to SUPPLY HOLD; the internal queue keeps its entries (R150). -/
def holdHalt (s : State) : State :=
  viewsUnusable (halt { s with watch := { s.watch with writeEndWait := false } })

/-- The block that carries the gate reports its end: in the write-end wait the halt follows (R112, R150),
after the effects of the gate's own end (log 51). -/
def reportGateEnd (s : State) : State :=
  if s.watch.st = .supplyHold ∧ s.watch.writeEndWait = true ∧ gateUp s = false then holdHalt s else s

/-- The passed gate, if active, is a read. -/
def readActive (s : State) : Bool :=
  match s.relay.gate with
  | some g => decide (g.kind = .read)
  | none => false

/-- Spin cycle owed at the entry to a hold (R150). -/
def spinOwedAtEntry (u : Watch) : Bool :=
  match u.st with
  | .spunDown => true
  | .spinningUp => true
  | .calibrating => !u.readyAccepted
  | _ => false

/-- SUPPLY HOLD entered: a passed read cut, and the halt at once unless a write or an internal gate is up (R112,
R150). A write whose check word's time has already ended stays up in the write-end wait (log 43). The cut of a
release-pending grant's read ends that grant by budget before the halt (log 20, log 51). -/
def enterHold (w : Carried) (s : State) : State :=
  let s1 : State := { s with watch := { s.watch with st := .supplyHold, spinOwed := spinOwedAtEntry s.watch } }
  let s2 := if readActive s1 then endGatePositioned .shortWrite w s1 else s1
  if gateUp s2 then { s2 with watch := { s2.watch with writeEndWait := true } } else holdHalt s2

/-- An accepted fall of READY, or a loss of rotation, in SUPPLY HOLD (R151). -/
def fallInHold (w : Carried) (s : State) : State :=
  let s1 := emptyQueue .driveDropped w (endGate .driveDropped w s)
  let s2 := if s.watch.writeEndWait then holdHalt s1 else s1
  viewsSpunDown (markStopped { s2 with watch := { s2.watch with spinOwed := true } })

/-! ## DRIVE FAULT -/

/-- Drive Watch enters DRIVE FAULT at what Positioner Control hands it (R96, R152). -/
def enterDriveFault (s : State) : State :=
  let cyl := (Config.driveFaultCylinder s.free).val
  let outcome : LastOutcome := ⟨.driveFault, if cyl ≤ 407 then some cyl else none⟩
  let s1 : State := { s with free := s.free + 1, pos := { s.pos with last := some outcome } }
  viewsUnusable (halt (setWatchState .driveFault
    (emptyQueue .driveFault .nothing (endGate .driveFault .nothing s1))))

/-- Trouble at the drive in READING MAP or READING LABEL: the transfer fails, the halt, and CALIBRATING with the read
still owed (R152). -/
def restartReading (w : Carried) (s : State) : State :=
  enterCalibrating (halt (emptyQueue .driveFault w s))

/-! ## The activation of a commit -/

/-- The images written become active (R63, R167). -/
def installImages (imgs : CommitImages) (s : State) : State :=
  { s with map := { s.map with
      mapState := .valid, activeMap := imgs.map,
      heldLabel := (match imgs.label with
        | some l => some l
        | none => s.map.heldLabel) } }

/-- The staged images become copies of the active ones, and the commit is no longer in flight (R61, R167). -/
def copyStaged (s : State) : State :=
  { s with map := { s.map with stagedMap := s.map.activeMap, stagedLabel := s.map.labelImage, commit := none } }

/-- The activation of a completed commit (R167). -/
def activate (imgs : CommitImages) (s : State) : State :=
  let s1 := viewsAtActivation (pruneInterlocks (installImages imgs s))
  let s2 := mailboxAtActivation s.map.mailboxCylinder s1
  let s3 := judgeRelease (giveCause .b .mapChanged (giveCause .a .mapChanged s2))
  let s4 := raiseSole .mapCommitted .absent s3.map.revision (copyStaged s3)
  if !usable s && usable s4 then viewsUsable s4 else s4

end Sys2Proof.Machine
end

