-- ==== Sys2Proof/Machine/PositionerOps.lean ====
section
/-! DEFINITION. Positioner Control's outcomes: attempts (R93), steps of recovery (R94 to R96), what the arbiter does at
an outcome (R72, R74, R81), a drive FAULT while running and an unbidden change (R97, R98), withdrawn orders (R13, R99). -/

namespace Sys2Proof.Machine

/-! ## The arbiter at an outcome -/

/-- A reached outcome (R72, R73, R81). -/
def arbiterReached (cyl : Nat) (s : State) : State :=
  match s.arb.st with
  | .claimed c k =>
    match s.arb.request.get c with
    | none => claimEnd c (decide (k = .continuing)) s
    | some p => if p.cyl = cyl then enterOwned c s else seekFor p.cyl s
  | .internal => beginTransfer { s with arb := { s.arb with awaited := none } }
  | .free => s
  | .owned _ => s
  | .halted => s

/-- An internal transfer whose seek to cylinder 0 has failed: unreadable, or the commit fails (R81, R168). E20 gives no
address, though the MAP WRITE be made again after a supply hold that came once its map sector was full (log 45). -/
def internalSeekFailed (s : State) : State :=
  match s.arb.queue.head? with
  | some .mapRead => internalEnds (mapReadOutcome (.failed 0) s)
  | some .labelRead => internalEnds (labelReadOutcome (.failed 0) s)
  | some .mapWrite => internalEnds (commitFails 2 .absent s)
  | none => internalEnds s

/-- A failed claim reaches the view (R35, R74): SEEK ERROR, no target, STANDBY. -/
def claimFailed (c : Chan) (s : State) : State :=
  claimEnd c false (removeRequest c (setView c { (s.view c).seekFailed with st := .standby } s))

/-- A failed outcome for a cylinder (R73, R74, R81). -/
def arbiterFailed (cyl : Nat) (s : State) : State :=
  match s.arb.st with
  | .claimed c k =>
    match s.arb.request.get c with
    | none => claimEnd c (decide (k = .continuing)) s
    | some p => if p.cyl = cyl then claimFailed c s else seekFor p.cyl s
  | .internal => internalSeekFailed s
  | .free => s
  | .owned _ => s
  | .halted => s

/-! ## Outcomes of an attempt -/

/-- The cylinder of the request in hand; 0 for a calibration and for a recovery with none (R102). -/
def soughtCyl (s : State) : Nat :=
  match s.pos.request with
  | some (.seek cyl) => cyl
  | some .calibration => 0
  | none => 0

/-- The seek is reached (R92 check 2, R93, R96). -/
def seekReached (cyl : Nat) (s : State) : State :=
  arbiterReached cyl
    { s with pos := { s.pos with cyl := some cyl, st := .idle, retry := false, request := none, ticks := none,
                                 last := some ⟨.reached, some cyl⟩ } }

/-- E9 and E10 of a failed attempt (R102). -/
def raiseAttempt (o : SeekOutcome) (s : State) : State :=
  let cyl := soughtCyl s
  let s1 := if o = .noAnswer then raiseSole .seekTimeout (cylSelAddr cyl s.pos.lastSel) s.pos.retry.toNat s else s
  if o ≠ .noAnswer ∨ s.pos.retry = true then raiseSole .seekError (cylAddr cyl) s.pos.retry.toNat s1 else s1

/-- An attempt has failed with SEEK ERROR, NO ANSWER or FAULT: recovery, or after the retry the closing steps (R93,
R96). The physical cylinder is UNKNOWN after it, also where the CYLINDER order was withdrawn unacknowledged, at the first
attempt and at the retry (log 53). -/
def attemptFailed (o : SeekOutcome) (s : State) : State :=
  let s1 := raiseAttempt o s
  startClearing (if s.pos.retry then .closing else .recovery)
    { s1 with pos := { s1.pos with cyl := none, last := some ⟨o, some (soughtCyl s)⟩ } }

/-- A CONTRADICTORY answer: E11 and DRIVE FAULT (R93, R95, R96, R102). The step is 0 an attempt, 1 the retry, 2 a
recalibration. A CONTRADICTORY retry is no failed retry: it raises no E10 beside E11 (log 52). -/
def contradictory (step : Nat) (s : State) : State :=
  enterDriveFault (raiseSole .positionerFault (cylAddr (if step = 2 then 0 else soughtCyl s)) step s)

/-- A clearing or recalibration step has failed: E12 and DRIVE FAULT (R94, R95, R96, R102). -/
def stepFailed (recalibration : Bool) (cause : StepCause) (s : State) : State :=
  enterDriveFault
    (raiseSole .recalibrationFailed (cylAddr 0) (detailE12 s.pos.stage recalibration cause) s)

/-! ## Outcomes of a step -/

/-- A clearing step has succeeded: a recalibration step follows (R94). -/
def clearingSucceeded (s : State) : State := startRecalibration s.pos.stage s

/-- A seek goes on from cylinder 0: already there, or the attempt (R92 checks 2 and 3, R96). -/
def seekFromZero (cyl : Nat) (s : State) : State := if cyl = 0 then seekReached 0 s else attemptSeek cyl s

/-- After a recovery with no request in hand: the held seek request begins, if there is one (R91, R95). -/
def takeHeld (s : State) : State :=
  match s.pos.held with
  | none => s
  | some cyl =>
    let s1 : State := { s with pos := { s.pos with request := some (.seek cyl), held := none, retry := false } }
    if driveTroubled s1 then startClearing .preparation s1 else seekFromZero cyl s1

/-- The closing steps after a failed retry have succeeded: FAILED CLAIM (R96). -/
def closingSucceeded (cyl : Nat) (s : State) : State :=
  arbiterFailed cyl
    { s with pos := { s.pos with retry := false, request := none, last := some ⟨.failedClaim, some cyl⟩ } }

/-- A recalibration has succeeded: the actuator stands on cylinder 0, and what the step was for follows (R95, R96,
R100). -/
def recalibrated (s : State) : State :=
  let s1 : State := { s with pos := { s.pos with cyl := some 0, st := .idle, ticks := none } }
  match s.pos.request, s.pos.stage with
  | some .calibration, _ =>
    watchCalibrated { s1 with pos := { s1.pos with request := none, last := some ⟨.calibrated, some 0⟩ } }
  | some (.seek cyl), .closing => closingSucceeded cyl s1
  | some (.seek cyl), .recovery => seekFromZero cyl { s1 with pos := { s1.pos with retry := true } }
  | some (.seek cyl), .preparation => seekFromZero cyl s1
  | some (.seek cyl), .calibration => seekFromZero cyl s1
  | none, _ => takeHeld s1

/-! ## The drive misbehaving -/

/-- Step 1 of R97: a passed or internal gate up at the drive port is cut. -/
def cutAtFault (w : Carried) (s : State) : State :=
  match activeChan s with
  | some c => (fun t => if (t.view c).st = .transferring then setViewState c .positioned t else t)
      (endGate .driveFault w s)
  | none => s

/-- A claim whose seek a withdrawn HEAD order interrupts: the seek is held for the recovery's end, at the cylinder its
channel now requests; a claim whose request is gone ends (R72, R73, R91; log 16). -/
def claimAtFault (c : Chan) (k : ClaimKind) (s : State) : State :=
  match s.arb.request.get c with
  | some p =>
    { s with pos := { s.pos with held := some p.cyl }, arb := { s.arb with awaited := some p.cyl } }
  | none => claimEnd c (decide (k = .continuing)) s

/-- Step 3 of R97: the owner's grant ends, charged, or the internal transfer has failed (R75, R82). The end of a
release-pending grant here is the fault's, not the budget's: no PREEMPTED and no E24 (log 20). -/
def endAtFault (s : State) : State :=
  match s.arb.st with
  | .owned x => grantEnd x .driveFault s
  | .internal => internalEnds s
  | .claimed c k => claimAtFault c k s
  | .free => s
  | .halted => s

/-- The commit that a drive FAULT while running fails with its transfer (R60, R168). -/
def commitAtFault (w : Carried) (s : State) : State :=
  if s.arb.st = .internal ∧ s.arb.queue.head? = some .mapWrite then runningCommitFails false w s else s

/-- A drive FAULT while running, an unbidden change or a withdrawn HEAD order: cut, UNKNOWN and clearing, the grant's
end, recovery (R97 to R99). The event has been raised. -/
def faultWhileRunning (w : Carried) (s : State) : State :=
  let s1 := commitAtFault w (cutInternal .driveFault w (cutAtFault w s))
  endAtFault
    (startClearing .recovery
      { s1 with pos := { s1.pos with cyl := none, request := none, held := none, retry := false } })

/-- An unbidden change of position: E10 with the cylinder that had been held (R98, R102). -/
def unbiddenChange (w : Carried) (s : State) : State :=
  faultWhileRunning w
    (raiseSole .seekError (match s.pos.cyl with
      | some cyl => cylAddr cyl
      | none => .absent) 2 s)

/-- Drive Watch is reading the map or the label. -/
def reading (s : State) : Bool := decide (s.watch.st = .readingMap ∨ s.watch.st = .readingLabel)

/-- An order is outstanding at the drive port: offered, or waiting to be (R13, R98; log 18). -/
def orderOutstanding (s : State) : Bool := s.drive.offered.isSome || !s.drive.waiting.isEmpty

/-- A change of position with Positioner Control IDLE: by Drive Watch's state, and nothing beyond the level while an
order is outstanding (R98, R152; log 18). -/
def positionLost (w : Carried) (s : State) : State :=
  if orderOutstanding s then s
  else if s.watch.st = .running then unbiddenChange w s
  else if reading s then restartReading w s
  else s

/-! ## Withdrawn orders -/

/-- Positioner Control's orders that still wait are discarded: the step they were for begins again (log 16). -/
def discardSteps (s : State) : State :=
  { s with drive := { s.drive with waiting := s.drive.waiting.filter fun o => !o.ofPositioner } }

/-- A HEAD order withdrawn: in RUNNING a drive FAULT while running without E13, whatever Positioner Control is doing, in
the reading states taken by Drive Watch; the record keeps its value (R13, R99, R152; log 16). -/
def headWithdrawn (w : Carried) (s : State) : State :=
  if s.watch.st = .running then faultWhileRunning w (discardSteps s)
  else if reading s then restartReading w s
  else s

/-- An order withdrawn is handed as failed to the block that issued it (R13). -/
def orderFailed (o : DriveOrder) (w : Carried) (s : State) : State :=
  match o with
  | .cylinder _ => if s.pos.st = .seeking then attemptFailed .noAnswer s else s
  | .faultClear => if s.pos.st = .clearing then stepFailed false .withdrawal s else s
  | .recalibrate => if s.pos.st = .recalibrating then stepFailed true .withdrawal s else s
  | .head _ _ => headWithdrawn w s

/-! ## Acknowledged orders -/

/-- The protection mark of a volume set to the drive's level (R15). -/
def setProt (v : Vol) (level : Bool) (d : DrivePort) : DrivePort :=
  match v with
  | .f => { d with protF := level }
  | .r => { d with protR := level }

/-- A channel has the grant or the claim (04 4.1). -/
def ArbState.isFor (a : ArbState) (c : Chan) : Bool :=
  match a with
  | .claimed x _ => decide (x = c)
  | .owned x => decide (x = c)
  | .free => false
  | .internal => false
  | .halted => false

/-- The owner's own HEAD order, with the pending selection, has been acknowledged and no later one of its waits (R32,
R35, R104; log 39). -/
def endsPending (sel : Sel) (issuer : HeadIssuer) (s : State) : Bool :=
  match issuer with
  | .relay c =>
    s.arb.st.isFor c && decide (s.relay.headPending = some sel) && !s.drive.waiting.any (·.headBy (.relay c))
  | .mapStore => false

/-- The relay's pending selection is cleared by the acknowledgement of the order that carries it (R104). An order left
over from the peer's grant clears nothing. -/
def clearPending (sel : Sel) (issuer : HeadIssuer) (s : State) : State :=
  if endsPending sel issuer s then { s with relay := { s.relay with headPending := none } } else s

/-- The Map Store waits for sector 0 once its HEAD order is acknowledged (R58). -/
def headForTransfer (sel : Sel) (s : State) : State :=
  match s.map.xfer with
  | .headOrder v => if sel = ⟨v, .h0⟩ then setXfer (.awaitSector v) s else s
  | _ => s

/-- What the acknowledgement of an order does (R13, R15, R92 to R95, R99, R104). A FAULT CLEAR and a RECALIBRATE leave the
physical cylinder as it stands: known, in a preparation made from a known position (log 42). -/
def orderAcknowledged (o : DriveOrder) (s : State) : State :=
  match o with
  | .cylinder _ => { s with pos := { s.pos with cyl := none, ticks := some 0 } }
  | .faultClear =>
    let s1 : State := { s with pos := { s.pos with ticks := some 0 } }
    if s.pos.st = .clearing ∧ driveTroubled s = false then clearingSucceeded s1 else s1
  | .recalibrate => { s with pos := { s.pos with ticks := some 0 } }
  | .head sel issuer =>
    let s1 : State := clearPending sel issuer
      { s with pos := { s.pos with lastSel := some sel }, drive := setProt sel.vol s.drive.writeProtected s.drive }
    if issuer = .mapStore then headForTransfer sel s1 else s1

end Sys2Proof.Machine
end

