-- ==== Sys2Proof/Machine/Pages.lean ====
section
/-! DEFINITION. The pages of the maintenance line (R162) and the place of each item in them (R173). -/

namespace Sys2Proof.Machine

/-- An absent optional number, UNKNOWN, unset or none (R173, log 26). -/
def absentWord : Word := 0xFFFF#16

/-- A number as a word. -/
def wordOf (n : Nat) : Word := BitVec.ofNat 16 n

/-- A mark as a word. -/
def markWord (b : Bool) : Word := wordOf b.toNat

/-- An optional number as a word. -/
def optionWord : Option Nat → Word
  | some n => wordOf n
  | none => absentWord

/-- A 32-bit stamp as two words, low then high (R173). -/
def stampWords (t : Stamp) : List Word := [t.extractLsb' 0 16, t.extractLsb' 16 16]

/-- An optional stamp as two words; absent, 0xFFFF in both (log 28). -/
def optionStampWords : Option Stamp → List Word
  | some t => stampWords t
  | none => [absentWord, absentWord]

/-- A run of words filled up to a length with a word. -/
def filled (n : Nat) (fill : Word) (l : List Word) : List Word := (l ++ List.replicate (n - l.length) fill).take n

/-! ## Page 0 -/

/-- The arbiter state as its code, and the channel or internal kind beside it (R173, log 28). -/
def arbiterWords (a : Arbiter) : List Word :=
  match a.st with
  | .free => [wordOf 0, absentWord]
  | .claimed c _ => [wordOf 1, wordOf (chanCode c)]
  | .owned c => [wordOf 2, wordOf (chanCode c)]
  | .internal =>
    [wordOf 3, match a.queue.head? with
      | some .labelRead => wordOf 0
      | some .mapRead => wordOf 1
      | some .mapWrite => wordOf 2
      | none => absentWord]
  | .halted => [wordOf 4, absentWord]

/-- The code of a map state. -/
def MapState.code : MapState → Nat
  | .valid => 0
  | .missing => 1

/-- The code of a label state. -/
def LabelState.code : LabelState → Nat
  | .valid => 0
  | .unlabelled => 1
  | .absent => 2

/-- The code of a last outcome, none standing first in its list (05 5.1, log 26). -/
def SeekOutcome.code : SeekOutcome → Nat
  | .reached => 1
  | .seekError => 2
  | .noAnswer => 3
  | .fault => 4
  | .contradictory => 5
  | .failedClaim => 6
  | .calibrated => 7
  | .driveFault => 8

/-- The last outcome and its cylinder. -/
def outcomeWords : Option LastOutcome → List Word
  | some o => [wordOf o.outcome.code, optionWord o.cyl]
  | none => [absentWord, absentWord]

/-- The uptime high word: the latch while it is present (R163). -/
def uptimeHigh (s : State) : Word := s.line.latch.getD (s.uptime.extractLsb' 16 16)

/-- Page 0. -/
def page0 (s : State) : List Word :=
  [wordOf s.watch.st.code] ++ arbiterWords s.arb
    ++ [wordOf s.map.mapState.code, wordOf s.map.labelState.code, wordOf s.pos.st.code, optionWord s.pos.cyl]
    ++ outcomeWords s.pos.last
    ++ [markWord s.map.commit.isSome, s.line.restartCount, wordOf s.line.page, s.uptime.extractLsb' 0 16,
        uptimeHigh s]

/-! ## Pages 1 to 3 -/

/-- The code of a class (03 3.2). -/
def ExtClass.code : ExtClass → Nat
  | .readWrite => 0
  | .readOnly => 1
  | .shared => 2
  | .mailbox => 3

/-- The view fault cause on its page: none is 0xFFFF (R173, log 26). -/
def faultWord (f : FaultCause) : Word := if f = .none then absentWord else wordOf f.code

/-- The target's three words; with no target each is absent (log 48). -/
def targetWords : Option Target → List Word
  | some t => [wordOf t.logical, wordOf t.physical, wordOf t.cls.code]
  | none => [absentWord, absentWord, absentWord]

/-- Pages 1 and 2. The layout has no place for the target's format permit, so it is not shown (log 49). -/
def viewPage (v : View) : List Word :=
  [wordOf v.st.code, headerWord2 v.sel.vol v.sel.head 0] ++ targetWords v.target
    ++ [markWord v.seekError, faultWord v.fault,
        wordOf (v.causes.bits + v.slotProt.toNat * 2 + v.causes.attention.toNat),
        wordOf v.wait, wordOf v.idle, wordOf v.debounce]

/-- Page 3. -/
def page3 (s : State) : List Word :=
  [wordOf s.arb.usage.a, wordOf s.arb.usage.b, wordOf (chanCode s.arb.gLast), wordOf (s.view .a).wait,
    wordOf (s.view .b).wait]

/-! ## Pages 4 to 6 -/

/-- An interlock entry's seven words. -/
def entryWords (e : Entry) : List Word :=
  [wordOf (2 ^ 15 + volBit e.vol * 2 ^ 8 + chanCode e.holder), wordOf e.cyl] ++ stampWords e.first
    ++ stampWords e.last ++ [wordOf e.sectors]

/-- A deferred request's two words (log 28). -/
def placeWords : Option Place → List Word
  | some p => [headerWord2 p.vol .h0 0, wordOf p.cyl]
  | none => [absentWord, absentWord]

/-- Page 4. -/
def page4 (s : State) : List Word :=
  filled 56 0#16 (s.ilock.list.flatMap entryWords) ++ optionStampWords s.ilock.chain.a
    ++ optionStampWords s.ilock.chain.b ++ placeWords s.ilock.deferred.a ++ placeWords s.ilock.deferred.b

/-- A slot's four words. -/
def slotWords : Option Posting → List Word
  | some p => [wordOf (2 ^ 15 + p.gap.toNat * 2 ^ 8 + chanCode p.sender), wordOf p.seq.toNat] ++ stampWords p.stamp
  | none => List.replicate 4 0#16

/-- A notice list's 24 places, unused ones 0xFFFF (R173). -/
def noticeWords (l : List (Fin 24)) : List Word := filled 24 absentWord (l.map fun k => wordOf k.val)

/-- Page 5. -/
def page5 (s : State) : List Word :=
  s.mbox.slots.toList.flatMap slotWords ++ noticeWords s.mbox.notice.a ++ noticeWords s.mbox.notice.b
    ++ [optionWord (s.mbox.expected.a.map (·.toNat)), optionWord (s.mbox.expected.b.map (·.toNat))]

/-- A torn entry's five words. -/
def tornWords (e : TornEntry) : List Word :=
  [wordOf (2 ^ 15 + e.writer.code * 2 ^ 12 + e.cause.code), headerWord2 e.addr.vol e.addr.head e.addr.sector.val,
    wordOf e.addr.cyl] ++ stampWords e.stamp

/-- Page 6. -/
def page6 (s : State) : List Word := filled 20 0#16 (s.relay.torn.flatMap tornWords)

/-! ## Pages 7 and 8 -/

/-- A flag word of page 7 (R173). -/
def flagWord (ev : EventUnit) : Nat → Word
  | 0 => wordOf (flagBits ev.recordsA)
  | 1 => wordOf (flagBits ev.recordsB)
  | _ => wordOf (flagBits ev.recordsSole)

/-- Three enable words. -/
def enableWords (e : Enables) : List Word := [wordOf e.a.toNat, wordOf e.b.toNat, wordOf e.sole.toNat]

/-- Page 7. -/
def page7 (s : State) : List Word :=
  [flagWord s.ev 0, flagWord s.ev 1, flagWord s.ev 2] ++ enableWords s.ev.recordEnable
    ++ enableWords s.ev.alarmEnable

/-- The presence bits and the address word of a record (R173); a cylinder without a volume is log 25. -/
def addressWords (p : PartAddr) : Nat × Word :=
  match p.vol, p.cyl with
  | some v, some cyl =>
    (2 ^ 14 + p.head.isSome.toNat * 2 ^ 13 + p.sector.isSome.toNat * 2 ^ 12,
      wordOf (volBit v * 2 ^ 15
        + (match p.head with | some h => headBit h * 2 ^ 14 | none => 0)
        + (match p.sector with | some k => k.val * 2 ^ 9 | none => 0) + cyl))
  | none, some cyl => (Config.cylinderOnlyBit.toNat * 2 ^ 14, wordOf (Config.cylinderOnlyVolume.toNat * 2 ^ 15 + cyl))
  | _, none => (0, 0#16)

/-- The channel bits of a record: 0 absent, 1 A, 2 B (R173). -/
def recordChannel : Option Chan → Nat
  | none => 0
  | some .a => 1
  | some .b => 2

/-- A record's five words. -/
def recordWords : Option FirstRecord → List Word
  | none => List.replicate 5 0#16
  | some r =>
    [wordOf (2 ^ 15 + (addressWords r.addr).1 + recordChannel r.chan * 2 ^ 6 + r.kind), (addressWords r.addr).2,
      r.detail] ++ stampWords r.stamp

/-- Page 8. -/
def page8 (s : State) : List Word :=
  s.ev.recordsA.toList.flatMap recordWords ++ s.ev.recordsB.toList.flatMap recordWords
    ++ s.ev.recordsSole.toList.flatMap recordWords

/-! ## Every page -/

/-- The words of a page. -/
def pageWords (s : State) : Nat → List Word
  | 0 => page0 s
  | 1 => viewPage (s.view .a)
  | 2 => viewPage (s.view .b)
  | 3 => page3 s
  | 4 => page4 s
  | 5 => page5 s
  | 6 => page6 s
  | 7 => page7 s
  | 8 => page8 s
  | 9 => s.map.stagedMap.toList
  | 10 => s.map.activeMap.toList
  | 11 => s.map.stagedLabel.toList
  | 12 => s.map.labelImage.toList
  | _ => []

/-- The length of a page (R173). -/
def pageLength : Nat → Nat
  | 0 => 14
  | 1 => 11
  | 2 => 11
  | 3 => 5
  | 4 => 64
  | 5 => 146
  | 6 => 20
  | 7 => 9
  | 8 => 215
  | 9 => 256
  | 10 => 256
  | 11 => 256
  | 12 => 256
  | _ => 0

/-- A word of a page as it stands (R163). -/
def pageWord (s : State) (page index : Nat) : Word := (pageWords s page)[index]?.getD 0#16

/-- A word of a page is writable (R162, R173). -/
def writable (page index : Nat) : Bool :=
  (decide (page = 7) && decide (3 ≤ index) && decide (index < 9)) || decide (page = 9) || decide (page = 11)

end Sys2Proof.Machine
end

