-- ==== Sys2Proof/Machine/Orders.lean ====
section
/-! DEFINITION. The orders that arrive at a channel port (R2 to R5, R24 to R29), and the fall of ORDER STROBE. -/

namespace Sys2Proof.Machine

/-- A rise of ORDER STROBE at a port (R2, R3): no arrival while ORDER ACKNOWLEDGE is still high, withheld without
effect in DETACHED; otherwise the idle count goes to 0 (R44), the order takes effect, and it is acknowledged unless
withheld. -/
def orderArrives (c : Chan) (withheld : Bool) (effect : State → State) (s : State) : State :=
  let s1 := setPort c { s.port c with strobe := true } s
  if (s.port c).ack || decide ((s.view c).st = .detached) then s1
  else
    let s2 := effect (idleToZero c s1)
    if withheld then s2 else setPort c { s2.port c with ack := true } s2

/-- A CYLINDER or HEAD order is withheld while a gate is active (R3, R29). -/
def withheldInGate (c : Chan) (s : State) : Bool := decide ((s.view c).st = .transferring)

/-- E1 of an unmapped translation at an order (R22, R45). -/
def raiseUnmapped (c : Chan) (cyl : Nat) (s : State) : State :=
  raiseFor c .unmappedSeek .absent (detailE1 (s.view c).sel.vol cyl) s

/-- The view stands POSITIONED on a physical cylinder. -/
def standsOn (v : View) (physical : Nat) : Bool :=
  decide (v.st = .positioned) && decide (v.target.map (·.physical) = some physical)

/-- A cylinder translated at an order in one of the four translating states (R24). -/
def translateOrder (c : Chan) (cyl : Nat) (s : State) : State :=
  let v := s.view c
  match translate s c v.sel.vol cyl with
  | .unusable => standbySeekError c s
  | .unmapped => standbySeekError c (raiseUnmapped c cyl s)
  | .mapped t =>
    let s1 := setView c { v with target := some t, seekError := false } s
    if standsOn v t.physical then s1 else makeRequest c s1

/-- The effect of a CYLINDER order by the view's state (R24). -/
def cylinderEffect (c : Chan) (cyl : Nat) (w : Carried) (s : State) : State :=
  match (s.view c).st with
  | .detached => s
  | .notReady => setView c (s.view c).seekFailed s
  | .standby => translateOrder c cyl s
  | .requesting => translateOrder c cyl s
  | .deferred => translateOrder c cyl s
  | .positioned => translateOrder c cyl s
  | .transferring => reportGateEnd (orderDuringGate c 0 w s)
  | .faulted => s

/-- CYLINDER_ORDER (R24). -/
def execCylinderOrder (c : Chan) (value : BitVec 10) (w : Carried) (s : State) : Host.Outcome State Fault Refusal :=
  .next (orderArrives c (withheldInGate c s) (cylinderEffect c value.toNat w) s)

/-- The selection taken; a change to head 1 or of volume clears the slot protection mark (R21, R25). -/
def View.select (v : View) (sel : Sel) : View :=
  { v with sel := sel, slotProt := v.slotProt && decide (sel.vol = v.sel.vol) && decide (sel.head = .h0) }

/-- A HEAD order that leaves the target as it is: a POSITIONED view has the selection sent on (R25, R104). -/
def headStays (c : Chan) (s : State) : State :=
  if (s.view c).st = .positioned then headAtOrder c s else s

/-- A request kept by a HEAD order: the arbiter's record takes the new volume (R65, log 14). -/
def keepRequest (c : Chan) (s : State) : State :=
  if (s.view c).st = .requesting then
    { s with arb := { s.arb with request := s.arb.request.set c (s.view c).place } }
  else s

/-- The target translated again at a HEAD order that changed the volume (R25). -/
def headTranslates (c : Chan) (t : Target) (s : State) : State :=
  match translate s c (s.view c).sel.vol t.logical with
  | .unusable =>
    if (s.view c).st = .notReady then setView c (s.view c).seekFailed s else standbySeekError c s
  | .unmapped => standbySeekError c (raiseUnmapped c t.logical s)
  | .mapped t' =>
    let s1 := setTarget c t' s
    if t'.physical = t.physical then headStays c (keepRequest c s1)
    else if (s.view c).st = .notReady then s1
    else makeRequest c s1

/-- A HEAD order taken: the selection, and the translation where the volume changed under a target (R25). -/
def takeHead (c : Chan) (sel : Sel) (s : State) : State :=
  let v := s.view c
  let s1 := setView c (v.select sel) s
  if sel.vol = v.sel.vol then headStays c s1
  else
    match v.target with
    | none => headStays c s1
    | some t => headTranslates c t s1

/-- The effect of a HEAD order by the view's state (R25). -/
def headEffect (c : Chan) (sel : Sel) (w : Carried) (s : State) : State :=
  match (s.view c).st with
  | .detached => s
  | .notReady => takeHead c sel s
  | .standby => takeHead c sel s
  | .requesting => takeHead c sel s
  | .deferred => takeHead c sel s
  | .positioned => takeHead c sel s
  | .transferring => reportGateEnd (orderDuringGate c 1 w s)
  | .faulted => s

/-- HEAD_ORDER (R25). -/
def execHeadOrder (c : Chan) (bus : BitVec 10) (w : Carried) (s : State) : Host.Outcome State Fault Refusal :=
  .next (orderArrives c (withheldInGate c s) (headEffect c (headSel bus) w) s)

/-- The SEEK ERROR mark cleared. -/
def clearSeekError (c : Chan) (s : State) : State := setView c { s.view c with seekError := false } s

/-- The effect of a RECALIBRATE by the view's state (R26). -/
def recalibrateEffect (c : Chan) (s : State) : State :=
  match (s.view c).st with
  | .detached => s
  | .notReady => cylinderEffect c 0 .nothing (clearSeekError c s)
  | .standby => cylinderEffect c 0 .nothing (clearSeekError c s)
  | .requesting => cylinderEffect c 0 .nothing (clearSeekError c s)
  | .deferred => cylinderEffect c 0 .nothing (clearSeekError c s)
  | .positioned => cylinderEffect c 0 .nothing (clearSeekError c s)
  | .transferring => s
  | .faulted => s

/-- RECALIBRATE (R26). -/
def execRecalibrate (c : Chan) (s : State) : Host.Outcome State Fault Refusal :=
  .next (orderArrives c false (recalibrateEffect c) s)

/-- A FAULTED view cleared: to STANDBY, or to NOT READY where the drive is unusable (R27, R127). -/
def leaveFaulted (c : Chan) (s : State) : State :=
  let v : View := { s.view c with fault := .none, seekError := false }
  if usable s then setView c { v with st := .standby } s
  else removeChain c (setView c { v with st := .notReady } s)

/-- The effect of a FAULT CLEAR by the view's state (R27). -/
def faultClearEffect (c : Chan) (s : State) : State :=
  if (s.view c).st = .faulted then leaveFaulted c s else clearSeekError c s

/-- FAULT_CLEAR (R27). -/
def execFaultClear (c : Chan) (s : State) : Host.Outcome State Fault Refusal :=
  .next (orderArrives c false (faultClearEffect c) s)

/-- The effect of a REPORT: the word on RETURN BUS, then the causes but MAILBOX NOTICE removed (R5, R28). -/
def reportEffect (c : Chan) (s : State) : State :=
  let v := s.view c
  setPort c { s.port c with returnBus := reportWord v.causes (s.mbox.notice.get c) v.fault }
    (setView c { v with causes := v.causes.afterReport } s)

/-- REPORT (R28). -/
def execReport (c : Chan) (s : State) : Host.Outcome State Fault Refusal :=
  .next (orderArrives c false (reportEffect c) s)

/-- UNKNOWN_FUNCTION_CODE (R4): acknowledged, no effect on the view. -/
def execUnknownFunctionCode (c : Chan) (_code : BitVec 10) (s : State) : Host.Outcome State Fault Refusal :=
  .next (orderArrives c false id s)

/-- ORDER_NAMING_NO_KIND (R4): acknowledged, no effect on the view. -/
def execOrderNamingNoKind (c : Chan) (_bus : BitVec 10) (s : State) : Host.Outcome State Fault Refusal :=
  .next (orderArrives c false id s)

/-- ORDER_STROBE_FALL (R2, R5): ORDER ACKNOWLEDGE falls, and RETURN BUS goes to zero with it. -/
def execOrderStrobeFall (c : Chan) (s : State) : Host.Outcome State Fault Refusal :=
  .next (setPort c { s.port c with strobe := false, ack := false, returnBus := 0#16 } s)

end Sys2Proof.Machine
end

