-- ==== Sys2Proof/Machine/Gates.lean ====
section
/-! DEFINITION. Gates at a channel port: arrival, drop, loss of the write clock, the cut at the check word in a supply
hold, CHECK ERROR, and the drop of a line whose gate was not passed (R11, R31 to R34, R109, R111, R112). -/

namespace Sys2Proof.Machine

/-- A gate line of a port at a level. -/
def Port.setLine (p : Port) (line : GateLine) (level : Bool) : Port :=
  match line with
  | .read => { p with readGate := level }
  | .write => { p with writeGate := level }

/-- E6 with the view state at the rise (R34, R45). -/
def raiseNoPosition (c : Chan) (line : GateLine) (s : State) : State :=
  raiseFor c .gateWithoutPosition .absent (detailE6 (s.view c).st line) s

/-- A gate that has arrived at a view, by its state (R32, R34). -/
def gateEffect (c : Chan) (line : GateLine) (sinceStart : Nat) (s : State) : State :=
  match (s.view c).st with
  | .detached => s
  | .notReady => s
  | .standby =>
    if (s.view c).target.isSome then makeRequest c (raiseNoPosition c line s) else raiseNoPosition c line s
  | .requesting => raiseNoPosition c line s
  | .deferred => raiseNoPosition c line s
  | .positioned => handGate c line sinceStart s
  | .transferring => s
  | .faulted => s

/-- GATE_ARRIVAL (R31, R32, R34, R44): an arrival only while both lines were low. -/
def execGateArrival (c : Chan) (line : GateLine) (sinceStart : Nat) (s : State) : Host.Outcome State Fault Refusal :=
  let p := s.port c
  let raised := setPort c (p.setLine line true) s
  if p.readGate || p.writeGate then .next raised
  else
    .next (gateEffect c line sinceStart
      (idleToZero c (setPort c { p.setLine line true with gate := some line } raised)))

/-- The gate at a port ended: its line low (R31). -/
def endPortGate (c : Chan) (s : State) : State :=
  match (s.port c).gate with
  | some line => setPort c { (s.port c).setLine line false with gate := none } s
  | none => s

/-- The gate at a port drops: the passed gate's end, or the end of one that is not active (R33, R44, R109). -/
def dropGate (c : Chan) (w : Carried) (s : State) : State :=
  if activeChan s = some c then reportGateEnd (endGatePositioned .shortWrite w (endPortGate c s))
  else if (s.port c).gate.isSome then idleToZero c (endPortGate c s)
  else s

/-- GATE_DROP (R109). -/
def execGateDrop (c : Chan) (w : Carried) (s : State) : Host.Outcome State Fault Refusal := .next (dropGate c w s)

/-- UNPASSED_GATE_DROP (R31, R44): the drop of the line that began the gate ends it; the drop of the other line ends
nothing (log 11). -/
def execUnpassedGateDrop (c : Chan) (line : GateLine) (s : State) : Host.Outcome State Fault Refusal :=
  if (s.port c).gate = some line then .next (dropGate c .nothing s)
  else .next (setPort c ((s.port c).setLine line false) s)

/-- A passed write is active. -/
def writeActive (s : State) : Bool :=
  match s.relay.gate with
  | some g => decide (g.kind ≠ .read)
  | none => false

/-- WRITE_CLOCK_LOST (R111): judged in a passed write whose data field has started and whose check word has not been
reached. -/
def execWriteClockLost (w : Carried) (s : State) : Host.Outcome State Fault Refusal :=
  if writeActive s && dataFieldStarted w && !reachedCheckWord w then
    .next (reportGateEnd (endGatePositioned .presenceLost w s))
  else .next s

/-- SUPPLY_WRITE_CUT_AT_CHECK_WORD (R112): the write still up at its check word in a supply hold. -/
def execSupplyWriteCutAtCheckWord (w : Carried) (s : State) : Host.Outcome State Fault Refusal :=
  if decide (s.watch.st = .supplyHold) && writeActive s && reachedCheckWord w then
    .next (reportGateEnd (endGatePositioned .shortWrite w s))
  else .next s

/-- CHECK_ERROR (R11): it belongs to the read gate that is up at the drive port, a channel's or an internal one. -/
def execCheckError (s : State) : Host.Outcome State Fault Refusal :=
  match s.relay.gate, s.map.xfer with
  | some g, _ =>
    if g.kind = .read then
      .next (setPort g.chan { s.port g.chan with pulse := some .checkError }
        { s with relay := { s.relay with gate := some { g with checkError := true } } })
    else .next s
  | none, .reading v _ => .next (setXfer (.reading v true) s)
  | none, _ => .next s

end Sys2Proof.Machine
end

