-- ==== Sys2Proof/Machine/Presence.lean ====
section
/-! DEFINITION. PRESENT at a channel port: its fall, its rise, and the attach (R18, R39, R40). -/

namespace Sys2Proof.Machine

/-- A passed gate of a channel cut by its loss of PRESENT (R39). -/
def cutAtLoss (c : Chan) (w : Carried) (s : State) : State :=
  if activeChan s = some c then endGate .presenceLost w s else s

/-- A view that loses its controller: DETACHED, no target, its request withdrawn or its grant given up, its entries
removed (R39, R127). -/
def detachView (c : Chan) (s : State) : State :=
  let old := (s.view c).st
  removeChain c (leave c old (setView c { (s.view c).withoutTarget with st := .detached, debounce := 0 } s))

/-- The loss of PRESENT accepted at a view that was not DETACHED (R39); `old` is its state before. -/
def losePresence (c : Chan) (w : Carried) (s : State) : State :=
  let old := (s.view c).st
  let s1 := raiseFor c .presenceLost .absent old.code (detachView c (cutAtLoss c w s))
  let s2 := giveCause (peer c) .peerDetached s1
  reportGateEnd (setPort c (s2.port c).inactive s2)

/-- PRESENCE_LOST (R39). -/
def execPresenceLost (c : Chan) (w : Carried) (s : State) : Host.Outcome State Fault Refusal :=
  let s1 := setPort c { s.port c with present := false } s
  if (s.view c).st = .detached then .next (setView c { s.view c with debounce := 0 } s1)
  else .next (losePresence c w s1)

/-- PRESENT_RISE (R40): the debounce counts from here. -/
def execPresentRise (c : Chan) (s : State) : Host.Outcome State Fault Refusal :=
  .next (setPort c { s.port c with present := true } s)

/-- The view as an attach sets it (R18, R40). -/
def attachedView (s : State) (c : Chan) : View :=
  { View.initial with
    st := if usable s then .standby else .notReady,
    causes := { Causes.empty with attached := true, mailboxNotice := !(s.mbox.notice.get c).isEmpty },
    debounce := (s.view c).debounce }

/-- The debounce of a DETACHED view has reached 50 with PRESENT high (R40). -/
def attachDue (s : State) (c : Chan) : Bool :=
  decide ((s.view c).st = .detached) && (s.port c).present && decide (50 ≤ (s.view c).debounce)

/-- ATTACH (R40). -/
def execAttach (c : Chan) (s : State) : Host.Outcome State Fault Refusal :=
  if attachDue s c then
    .next (giveCause (peer c) .peerAttached (unsetExpected c (setView c (attachedView s c) s)))
  else .next s

end Sys2Proof.Machine
end

