-- ==== Sys2Proof/Machine/Rotation.lean ====
section
/-! DEFINITION. Sector starts and the loss of rotation (R6, R21, R58, R63, R110, R142, R143). -/

namespace Sys2Proof.Machine

/-- The pulses carry an INDEX: the start of sector 0 (R6). -/
def StartKind.isIndex : StartKind → Bool
  | .indexSector => true
  | .sector => false
  | .index => true

/-- The sector count and the synchronised mark, with the pulse gap at 0 (R142). -/
def setRotation (sector : Fin 24) (sync : Bool) (s : State) : State :=
  { s with watch := { s.watch with sector := sector, sync := sync, gap := 0 } }

/-- The rotation monitor takes a sector start (R142). -/
def monitorStart (k : StartKind) (s : State) : State :=
  let count := s.watch.sector
  if StartKind.isIndex k then
    (if s.watch.sync && decide (count ≠ 23) then
      setRotation 0 true (raiseSole .rotationFault .absent (detailE14 false count.val) s)
     else setRotation 0 true s)
  else if s.watch.sync then
    (if count = 23 then setRotation 23 true (raiseSole .rotationFault .absent (detailE14 true count.val) s)
     else setRotation (count + 1) true s)
  else setRotation 0 false s

/-- A sector start is relayed to a view in this state (R6). -/
def ViewState.relays : ViewState → Bool
  | .detached => false
  | .notReady => false
  | .standby => true
  | .requesting => true
  | .deferred => true
  | .positioned => true
  | .transferring => true
  | .faulted => true

/-- The slot protection mark judged at a relayed sector start (R21, log 37). -/
def slotProtection (s : State) (v : View) : Bool :=
  v.targetIs .mailbox && decide (v.sel.head = .h0) && posted s s.watch.sector

/-- A sector start relayed to a channel (R6, R21). -/
def relayStart (k : StartKind) (c : Chan) (s : State) : State :=
  let v := s.view c
  if v.st.relays then
    setPort c { s.port c with pulse := some (.start k) } (setView c { v with slotProt := slotProtection s v } s)
  else s

/-- The Map Store at a sector start: at the awaited start of sector 0 a read gate rises, or the header window before a
write opens (R58, R59, R63). -/
def transferStart (k : StartKind) (s : State) : State :=
  match s.map.xfer with
  | .awaitSector v =>
    if StartKind.isIndex k then
      (if s.arb.queue.head? = some .mapWrite then setXfer (.window v) s
       else setXfer (.reading v false) { s with drive := { s.drive with readGate := true } })
    else s
  | .none => s
  | .headOrder _ => s
  | .reading _ _ => s
  | .window _ => s
  | .writing _ => s

/-- SECTOR_START (R6, R21, R58, R110, R142). -/
def execSectorStart (k : StartKind) (w : Carried) (s : State) : Host.Outcome State Fault Refusal :=
  let s1 := overrun w (monitorStart k s)
  let s2 := relayStart k .b (relayStart k .a s1)
  .next (reportGateEnd (transferStart k s2))

/-- READY taken as fallen: not accepted, the debounce 0 (R143, R144). -/
def readyLost (s : State) : State :=
  { s with watch := { s.watch with readyAccepted := false, readyDebounce := 0 } }

/-- Rotation is judged in READING MAP, READING LABEL and RUNNING (R143). -/
def WatchState.judgesRotation : WatchState → Bool
  | .readingMap => true
  | .readingLabel => true
  | .running => true
  | .spunDown => false
  | .spinningUp => false
  | .calibrating => false
  | .supplyHold => false
  | .driveFault => false

/-- A loss of rotation in SUPPLY HOLD, of a drive that is accepted (R151; log 12). -/
def losesInHold (u : Watch) : Bool := decide (u.st = .supplyHold) && u.readyAccepted

/-- ROTATION_LOST (R143, R151): at a pulse gap of 5. In SUPPLY HOLD it raises no event. -/
def execRotationLost (w : Carried) (s : State) : Host.Outcome State Fault Refusal :=
  if 5 ≤ s.watch.gap then
    (if s.watch.st.judgesRotation then
      .next (spinDown w (readyLost (raiseSole .rotationLost .absent s.watch.sector.val s)))
     else if losesInHold s.watch then .next (fallInHold w (readyLost s))
     else .next { s with watch := { s.watch with readyDebounce := 0 } })
  else .next s

end Sys2Proof.Machine
end

