-- ==== Sys2Proof/Machine/Transfers.lean ====
section
/-! DEFINITION. Internal transfers of the Map Store: the rise and end of their gates (R58, R59, R63, R82, R170). -/

namespace Sys2Proof.Machine

/-- INTERNAL_WRITE_GATE_RISE (R63): at the end of the header window of sector 0. -/
def execInternalWriteGateRise (s : State) : Host.Outcome State Fault Refusal :=
  match s.map.xfer with
  | .window v => .next (setXfer (.writing v) { s with drive := { s.drive with writeGate := true } })
  | .none => .next s
  | .headOrder _ => .next s
  | .awaitSector _ => .next s
  | .reading _ _ => .next s
  | .writing _ => .next s

/-- The header of the map or label sector: word 1 is 0, word 2 its volume, word 3 not judged (R170). -/
def headerMatches (v : Vol) (h : HeaderWords) : Bool :=
  decide (h.w1 = 0#16) && decide (h.w2 = headerWord2 v .h0 0)

/-- An image validated as that of its volume's sector (R58, R59). -/
def validateFor : Vol → Image → Option Nat
  | .f => validateMap
  | .r => validateLabel

/-- The outcome of an internal read: unreadable, invalid or valid (R58, R59). -/
def readResult (v : Vol) (full checkError : Bool) (header : HeaderWords) (data : Image) : ReadResult :=
  if full && !checkError && headerMatches v header then
    match validateFor v data with
    | none => .valid data
    | some n => .failed n
  else .failed 0

/-- The outcome handed to the Map Store and Drive Watch (R58, R59). -/
def readOutcome : Vol → ReadResult → State → State
  | .f => mapReadOutcome
  | .r => labelReadOutcome

/-- INTERNAL_READ_END (R58, R59, R82): the gate drops, the outcome, then the transfer's end at the arbiter (log 21). -/
def execInternalReadEnd (full : Bool) (header : HeaderWords) (data : Image) (s : State) :
    Host.Outcome State Fault Refusal :=
  match s.map.xfer with
  | .reading v checkError =>
    .next (reportGateEnd (internalEnds
      (readOutcome v (readResult v full checkError header data) (dropDriveGates s))))
  | .none => .next s
  | .headOrder _ => .next s
  | .awaitSector _ => .next s
  | .window _ => .next s
  | .writing _ => .next s

/-- An internal write has been full: its image has gone down WRITE DATA, its gate drops, its sector leaves the torn
list (R63, R113). -/
def writeDone (v : Vol) (imgs : CommitImages) (s : State) : State :=
  mendSector (mapSector v) (dropDriveGates { s with drive := { s.drive with writeData := (imgs.imageFor v).toList } })

/-- What follows a full internal write: the label write where there is one, stopped in a supply hold; otherwise the
commit completes and the transfer ends (R60, R63, R82, R167). In a supply hold the decision at that end comes before the
halt (log 51). -/
def afterWrite (v : Vol) (imgs : CommitImages) (s : State) : State :=
  if v = .f ∧ imgs.label.isSome = true then
    (if s.watch.st = .supplyHold then reportGateEnd s else beginSector .r s)
  else reportGateEnd (internalEnds (activate imgs s))

/-- INTERNAL_WRITE_END (R63, R167). -/
def execInternalWriteEnd (s : State) : Host.Outcome State Fault Refusal :=
  match s.map.xfer, s.map.commit with
  | .writing v, some imgs => .next (afterWrite v imgs (writeDone v imgs s))
  | .writing _, none => .next (reportGateEnd (internalEnds (dropDriveGates s)))
  | .none, _ => .next s
  | .headOrder _, _ => .next s
  | .awaitSector _, _ => .next s
  | .window _, _ => .next s
  | .reading _ _, _ => .next s

end Sys2Proof.Machine
end

