-- ==== Sys2Proof/Machine/DriveOrders.lean ====
section
/-! DEFINITION. The order handshake at the drive port (R13). -/

namespace Sys2Proof.Machine

/-- The order being offered taken off the lines: ORDER STROBE drops. -/
def dropStrobe (s : State) : State := { s with drive := { s.drive with offered := none } }

/-- DRIVE_ORDER_ACKNOWLEDGE (R13): the strobe drops, and the order has its effect. -/
def execDriveOrderAcknowledge (s : State) : Host.Outcome State Fault Refusal :=
  let s1 : State := { s with drive := { s.drive with ack := true } }
  match s.drive.offered with
  | some o => .next (orderAcknowledged o (dropStrobe s1))
  | none => .next s1

/-- DRIVE_ACKNOWLEDGE_FALL (R13): the next waiting order may be offered. -/
def execDriveAcknowledgeFall (s : State) : Host.Outcome State Fault Refusal :=
  .next (offerNext { s with drive := { s.drive with ack := false } })

/-- ORDER_WITHDRAWN (R13): 5 ticks after the strobe's rise. -/
def execOrderWithdrawn (w : Carried) (s : State) : Host.Outcome State Fault Refusal :=
  match s.drive.offered with
  | some o =>
    if 5 ≤ s.drive.strobeTicks then .next (reportGateEnd (offerNext (orderFailed o w (dropStrobe s)))) else .next s
  | none => .next s

end Sys2Proof.Machine
end

