-- ==== Sys2Proof/Machine/Positioning.lean ====
section
/-! DEFINITION. The drive's answers at the drive port: ON CYLINDER, SEEK ERROR, FAULT, WRITE PROTECTED, and the time
limits of a seek, a clearing and a recalibration (R15, R93 to R98). An answer is judged after the acknowledgement of
its order. -/

namespace Sys2Proof.Machine

/-- The order of the present step has been acknowledged. -/
def acknowledged (s : State) : Bool := s.pos.ticks.isSome

/-- The step in E11's detail for an attempt (R174). -/
def attemptStep (s : State) : Nat := if s.pos.retry then 1 else 0

/-- A rise of ON CYLINDER judged (R93, R95). -/
def onCylinderJudged (s : State) : State :=
  match s.pos.st with
  | .seeking =>
    if acknowledged s then
      (if s.drive.seekError then contradictory (attemptStep s) s else seekReached (soughtCyl s) s)
    else s
  | .recalibrating =>
    if acknowledged s then (if s.drive.seekError then contradictory 2 s else recalibrated s) else s
  | .idle => s
  | .clearing => s
  | .halted => s

/-- ON_CYLINDER_RISE (R93). -/
def execOnCylinderRise (s : State) : Host.Outcome State Fault Refusal :=
  .next (onCylinderJudged { s with drive := { s.drive with onCylinder := true } })

/-- A rise of SEEK ERROR judged (R93, R95, R98). -/
def seekErrorJudged (w : Carried) (s : State) : State :=
  match s.pos.st with
  | .seeking =>
    if acknowledged s then
      (if s.drive.onCylinder then contradictory (attemptStep s) s else attemptFailed .seekError s)
    else s
  | .recalibrating =>
    if acknowledged s then (if s.drive.onCylinder then contradictory 2 s else stepFailed true .seekError s) else s
  | .idle => positionLost w s
  | .clearing => s
  | .halted => s

/-- SEEK_ERROR_RISE (R93). -/
def execSeekErrorRise (w : Carried) (s : State) : Host.Outcome State Fault Refusal :=
  .next (seekErrorJudged w { s with drive := { s.drive with seekError := true } })

/-- The address of E13: present where the cylinder and the last ordered selection are both known (R155). -/
def faultAddr (s : State) : PartAddr :=
  match s.pos.cyl, s.pos.lastSel with
  | some cyl, some sel => cylSelAddr cyl (some sel)
  | _, _ => .absent

/-- E13 at a rise of FAULT in RUNNING (R15, R155). -/
def raiseFaultLine (s : State) : State :=
  if s.watch.st = .running then raiseSole .driveFaultLine (faultAddr s) s.pos.st.code s else s

/-- A rise of FAULT judged (R93, R95, R97, R152). In SUPPLY HOLD it has no effect, an internal gate still up included:
R151 is followed there, not the drive FAULT's row of R60 (log 46). -/
def faultJudged (w : Carried) (s : State) : State :=
  match s.pos.st with
  | .seeking => if acknowledged s then attemptFailed .fault s else s
  | .recalibrating => if acknowledged s then stepFailed true .fault s else s
  | .idle =>
    if s.watch.st = .running then faultWhileRunning w s else if reading s then restartReading w s else s
  | .clearing => s
  | .halted => s

/-- DRIVE_FAULT_LINE (R15). -/
def execDriveFaultLine (w : Carried) (s : State) : Host.Outcome State Fault Refusal :=
  .next (faultJudged w (raiseFaultLine { s with drive := { s.drive with fault := true } }))

/-- ON_CYLINDER_FALL (R98). -/
def execOnCylinderFall (w : Carried) (s : State) : Host.Outcome State Fault Refusal :=
  let s1 : State := { s with drive := { s.drive with onCylinder := false } }
  if s.pos.st = .idle then .next (positionLost w s1) else .next s1

/-- CLEARING_STEP_SUCCEEDED (R94): FAULT and SEEK ERROR are both low. -/
def execClearingStepSucceeded (s : State) : Host.Outcome State Fault Refusal :=
  let s1 : State := { s with drive := { s.drive with fault := false, seekError := false } }
  if decide (s.pos.st = .clearing) && acknowledged s then .next (clearingSucceeded s1) else .next s1

/-- The ticks since the acknowledgement have reached a limit. -/
def limitReached (limit : Nat) (s : State) : Bool :=
  match s.pos.ticks with
  | some n => decide (limit ≤ n)
  | none => false

/-- SEEK_NO_ANSWER (R93): 150 ticks after the acknowledgement. -/
def execSeekNoAnswer (s : State) : Host.Outcome State Fault Refusal :=
  if decide (s.pos.st = .seeking) && limitReached 150 s then .next (attemptFailed .noAnswer s) else .next s

/-- CLEARING_TIME_LIMIT (R94): 50 ticks after the acknowledgement. -/
def execClearingTimeLimit (s : State) : Host.Outcome State Fault Refusal :=
  if decide (s.pos.st = .clearing) && limitReached 50 s then .next (stepFailed false .timeLimit s) else .next s

/-- RECALIBRATION_TIME_LIMIT (R95): 600 ticks after the acknowledgement. -/
def execRecalibrationTimeLimit (s : State) : Host.Outcome State Fault Refusal :=
  if decide (s.pos.st = .recalibrating) && limitReached 600 s then .next (stepFailed true .timeLimit s) else .next s

/-- WRITE_PROTECTED_CHANGE (R15): the mark of the volume last ordered follows the level. -/
def execWriteProtectedChange (level : Bool) (s : State) : Host.Outcome State Fault Refusal :=
  let d : DrivePort := { s.drive with writeProtected := level }
  match s.pos.lastSel with
  | some sel => .next { s with drive := setProt sel.vol level d }
  | none => .next { s with drive := d }

end Sys2Proof.Machine
end

