-- ==== Sys2Proof/Machine/DriveWatch.lean ====
section
/-! DEFINITION. Power-on, READY and the supply warning at Drive Watch (R141, R144 to R147, R150 to R153). -/

namespace Sys2Proof.Machine

/-- POWER_ON (R18, R46, R64, R90, R103, R118, R130, R141, R160): every block at its initial values, then E29 with the
power-on detail, in this command and so at uptime 0 (log 47). The queue of commands and the free values are the model's
and go on. -/
def execPowerOn (lines : InputLines) (s : State) : Host.Outcome State Fault Refusal :=
  .next (raiseSole .supplyWarning .absent 8 (State.initialised lines .initial 0#32 0#16 s.free s.pending))

/-- READY_RISE (R146). -/
def execReadyRise (s : State) : Host.Outcome State Fault Refusal :=
  let s1 : State := { s with drive := { s.drive with ready := true } }
  if s.watch.st = .spunDown then .next (setWatchState .spinningUp s1) else .next s1

/-- What an accepted fall of READY does by Drive Watch's state (R146, R147, R151). -/
def acceptedFall (w : Carried) (s : State) : State :=
  match s.watch.st with
  | .spunDown => s
  | .spinningUp => s
  | .calibrating => spinDown w s
  | .readingMap => spinDown w s
  | .readingLabel => spinDown w s
  | .running => spinDown w s
  | .supplyHold => fallInHold w s
  | .driveFault => spinDown w s

/-- READY_FALL (R144, R146): accepted at its arrival; SPINNING UP goes back to SPUN DOWN. -/
def execReadyFall (w : Carried) (s : State) : Host.Outcome State Fault Refusal :=
  let s1 := readyLost { s with drive := { s.drive with ready := false } }
  if s.watch.st = .spinningUp then .next (setWatchState .spunDown s1)
  else if s.watch.readyAccepted then .next (acceptedFall w s1)
  else .next s1

/-- The READY debounce has reached 200 with READY high (R144). -/
def readyDue (s : State) : Bool :=
  s.drive.ready && !s.watch.readyAccepted && decide (200 ≤ s.watch.readyDebounce)

/-- READY_ACCEPTED (R144, R146). -/
def execReadyAccepted (s : State) : Host.Outcome State Fault Refusal :=
  if readyDue s then
    let s1 : State := { s with watch := { s.watch with readyAccepted := true } }
    if s.watch.st = .spunDown ∨ s.watch.st = .spinningUp then .next (enterCalibrating s1) else .next s1
  else .next s

/-- A supply warning accepted: E29, and SUPPLY HOLD except in SUPPLY HOLD and DRIVE FAULT (R145, R150, R153). -/
def acceptWarning (w : Carried) (s : State) : State :=
  let s1 := raiseSole .supplyWarning .absent s.watch.st.code
    { s with watch := { s.watch with warnAccepted := true } }
  if s.watch.st = .supplyHold ∨ s.watch.st = .driveFault then s1 else enterHold w s1

/-- SUPPLY_WARNING (R145). -/
def execSupplyWarning (w : Carried) (s : State) : Host.Outcome State Fault Refusal :=
  let s1 : State := { s with warning := true, watch := { s.watch with clearDebounce := 0 } }
  if s.watch.warnAccepted then .next s1 else .next (acceptWarning w s1)

/-- SUPPLY_WARNING_INPUT_CLEARS (R145): the clear debounce counts from here. -/
def execSupplyWarningInputClears (s : State) : Host.Outcome State Fault Refusal :=
  .next { s with warning := false }

/-- The clear debounce has reached 100 with the input clear (R145). -/
def clearDue (s : State) : Bool :=
  s.watch.warnAccepted && !s.warning && decide (100 ≤ s.watch.clearDebounce)

/-- The end of a supply hold (R151). -/
def leaveHold (s : State) : State :=
  if s.watch.readyAccepted then enterCalibrating s
  else setWatchState (if s.drive.ready then .spinningUp else .spunDown) s

/-- SUPPLY_CLEAR_ACCEPTED (R145, R151, R153). -/
def execSupplyClearAccepted (s : State) : Host.Outcome State Fault Refusal :=
  if clearDue s then
    let s1 : State := { s with watch := { s.watch with warnAccepted := false } }
    if s.watch.st = .supplyHold then .next (leaveHold s1) else .next s1
  else .next s

end Sys2Proof.Machine
end

