-- ==== Sys2Proof/Machine/Arbitration.lean ====
section
/-! DEFINITION. The expiries of the arbiter and of the Interlock Unit (R77, R79, R121, R122). Each makes its comparison
again when it is taken, since what was taken before it may have changed what it compares (log 2). -/

namespace Sys2Proof.Machine

/-- RELEASE_INTERVAL (R77). -/
def execReleaseInterval (s : State) : Host.Outcome State Fault Refusal := .next (judgeRelease s)

/-- The budget clock has reached the grant budget of the owner, while another requester waits (R79). -/
def budgetDue (s : State) (x : Chan) : Bool :=
  decide (s.arb.st = .owned x) && otherWaits s x && decide (s.arb.budget ≤ s.arb.clock) && !s.arb.releasePending

/-- The budget expiry of an owner, by the state of its view (R79). -/
def budgetExpires (x : Chan) (s : State) : State :=
  if (s.view x).st = .transferring then { s with arb := { s.arb with releasePending := true } }
  else grantEnd x .budget s

/-- BUDGET_EXPIRY (R79). -/
def execBudgetExpiry (s : State) : Host.Outcome State Fault Refusal :=
  match s.arb.st with
  | .owned x => if budgetDue s x then .next (budgetExpires x s) else .next s
  | .free => .next s
  | .claimed _ _ => .next s
  | .internal => .next s
  | .halted => .next s

/-- INTERLOCK_CHAIN_END (R121, R122): the age comparison of the holder's entries is made first. -/
def execInterlockChainEnd (c : Chan) (s : State) : Host.Outcome State Fault Refusal :=
  .next (endChain c (ageOut (fun e => decide (e.holder = c)) s))

/-- INTERLOCK_AGED_OUT (R122): the entry on a volume and cylinder. -/
def execInterlockAgedOut (v : Vol) (cyl : Nat) (s : State) : Host.Outcome State Fault Refusal :=
  .next (ageOut (fun e => e.holds ⟨v, cyl⟩) s)

end Sys2Proof.Machine
end

