-- ==== Sys2Proof/Machine/Maintenance.lean ====
section
/-! DEFINITION. The frames of the maintenance line, their replies, and the restart (R88, R116, R157, R159, R161 to
R166). -/

namespace Sys2Proof.Machine

/-- A reply begun. -/
def reply (r : Reply) (s : State) : State := { s with line := { s.line with reply := some r } }

/-- A frame taken at its CR, with the characters received in the buffer (R161): lost while a reply is being sent. -/
def takeFrame (text : List (BitVec 8)) (act : State → State) (s : State) : State :=
  if s.line.reply.isSome then s
  else act { s with line := { s.line with frame := text, frameError := false } }

/-- `P pp` (R163). -/
def selectPage (page : Nat) (s : State) : State :=
  if 12 < page then reply .badPage s else reply .ok { s with line := { s.line with page := page } }

/-- P_COMMAND (R163). -/
def execPCommand (page : Nat) (s : State) : Host.Outcome State Fault Refusal :=
  .next (takeFrame (Frame.page page).chars (selectPage page) s)

/-- The uptime high latch after a read of a word (R163). -/
def latchAfterRead (s : State) (index : Nat) : Option Word :=
  if s.line.page = 0 ∧ index = 12 then some (s.uptime.extractLsb' 16 16)
  else if s.line.page = 0 ∧ index = 13 then none
  else s.line.latch

/-- `R ii` (R163). -/
def readWord (index : Nat) (s : State) : State :=
  if pageLength s.line.page ≤ index then reply .badIndex s
  else
    reply (.value (pageWord s s.line.page index))
      { s with line := { s.line with latch := latchAfterRead s index } }

/-- R_COMMAND (R163). -/
def execRCommand (index : BitVec 8) (s : State) (text : List (BitVec 8) := []) : Host.Outcome State Fault Refusal :=
  .next (takeFrame text (readWord index.toNat) s)

/-- R_UPTIME_LOW (R163): `R 0C`; on page 0 the latch takes the high word. -/
def execRUptimeLow (s : State) (text : List (BitVec 8) := []) : Host.Outcome State Fault Refusal :=
  .next (takeFrame text (readWord 12) s)

/-- R_UPTIME_HIGH (R163): `R 0D`; on page 0 the latch is read and removed. -/
def execRUptimeHigh (s : State) (text : List (BitVec 8) := []) : Host.Outcome State Fault Refusal :=
  .next (takeFrame text (readWord 13) s)

/-- A write to a page (R157, R163): an enable word of page 7, or a word of a staged image. -/
def storeWord (page index : Nat) (v : Word) (s : State) : State :=
  if page = 7 then { s with ev := s.ev.writeEnable index v }
  else if page = 9 then { s with map := { s.map with stagedMap := s.map.stagedMap.setIfInBounds index v } }
  else if page = 11 then { s with map := { s.map with stagedLabel := s.map.stagedLabel.setIfInBounds index v } }
  else s

/-- `W ii hhhh`, its refusals in order (R161, R163). -/
def writeWord (index : Nat) (v : Word) (s : State) : State :=
  let page := s.line.page
  if pageLength page ≤ index then reply .badIndex s
  else if !writable page index then reply .readOnly s
  else if (decide (page = 9) || decide (page = 11)) && s.map.commit.isSome then reply .busy s
  else reply .ok (storeWord page index v s)

/-- W_ENABLE_WORD (R157). -/
def execWEnableWord (index : BitVec 8) (value : Word) (s : State) (text : List (BitVec 8) := []) :
    Host.Outcome State Fault Refusal :=
  .next (takeFrame text (writeWord index.toNat value) s)

/-- W_STAGED_IMAGE (R163). -/
def execWStagedImage (index : BitVec 8) (value : Word) (s : State) (text : List (BitVec 8) := []) :
    Host.Outcome State Fault Refusal :=
  .next (takeFrame text (writeWord index.toNat value) s)

/-- W_NOT_WRITABLE (R163). -/
def execWNotWritable (index : BitVec 8) (value : Word) (s : State) (text : List (BitVec 8) := []) :
    Host.Outcome State Fault Refusal :=
  .next (takeFrame text (writeWord index.toNat value) s)

/-- `T ii` (R159, R164). -/
def takeFlags (index : Nat) (s : State) : State :=
  if s.line.page = 7 ∧ index < 3 then reply (.value (flagWord s.ev index)) { s with ev := s.ev.take index }
  else reply .badIndex s

/-- T_COMMAND (R159). -/
def execTCommand (index : BitVec 8) (s : State) (text : List (BitVec 8) := []) : Host.Outcome State Fault Refusal :=
  .next (takeFrame text (takeFlags index.toNat) s)

/-- The lowest reason for which the staged images are refused; none where they are valid (R62). -/
def validateStaged (m : MapStore) : Option Nat :=
  if m.labelState = .valid then validatePair m.stagedMap m.stagedLabel else validateMap m.stagedMap

/-- The images a commit is to write, fixed when it is taken (R62). -/
def commitImages (m : MapStore) : CommitImages :=
  { map := mapToWrite m.stagedMap m.revision,
    label := if m.labelState = .valid ∧ sameImage m.stagedLabel m.labelImage = false then
        some (labelToWrite m.stagedLabel)
      else none }

/-- A commit taken: in flight, with its MAP WRITE queued, or failed at once where the queue refuses it (R67, R166,
R168). -/
def takeCommit (s : State) : State :=
  let s1 : State := { s with map := { s.map with commit := some (commitImages s.map) } }
  if internalRefused .mapWrite s1 then commitFails 1 .absent s1 else internalArrives .mapWrite s1

/-- `C` (R166). -/
def commitFrame (s : State) : State :=
  if s.map.commit.isSome then reply .busy s
  else if s.watch.st ≠ .running then reply .notRunning s
  else
    match validateStaged s.map with
    | some n => reply (.invalid n) s
    | none => reply .ok (takeCommit s)

/-- C_COMMAND (R166). -/
def execCCommand (s : State) : Host.Outcome State Fault Refusal := .next (takeFrame Frame.commit.chars commitFrame s)

/-- U_COMMAND (R88). -/
def execUCommand (s : State) : Host.Outcome State Fault Refusal :=
  .next (takeFrame Frame.zeroUsage.chars (fun t => reply .ok { t with arb := { t.arb with usage := ⟨0, 0⟩ } }) s)

/-- K_COMMAND (R116). -/
def execKCommand (s : State) : Host.Outcome State Fault Refusal :=
  .next (takeFrame Frame.clearTorn.chars (fun t => reply .ok (setTorn [] t)) s)

/-- I_COMMAND (R164). -/
def execICommand (s : State) : Host.Outcome State Fault Refusal :=
  .next (takeFrame Frame.ident.chars (reply (.value 0x7420#16)) s)

/-- X_COMMAND (R165): the restart follows the reply. -/
def execXCommand (s : State) : Host.Outcome State Fault Refusal :=
  .next (takeFrame Frame.restart.chars (fun t => reply .ok { t with line := { t.line with restartDue := true } }) s)

/-- MALFORMED_FRAME (R161): the characters join the frame buffer, and the frame is answered `?F`. -/
def execMalformedFrame (chars : List RxChar) (s : State) : Host.Outcome State Fault Refusal :=
  if s.line.reply.isSome then .next s
  else
    let (buf, err) := receive chars s.line.frame s.line.frameError
    .next (reply .badFrame { s with line := { s.line with frame := buf, frameError := err } })

/-- The input lines of a channel port as they stand. -/
def Port.lines (p : Port) : PortLines := ⟨p.strobe, p.readGate, p.writeGate, p.present⟩

/-- The input lines of the part as they stand. -/
def State.inputLines (s : State) : InputLines :=
  { portA := s.ports.a.lines, portB := s.ports.b.lines,
    drive := ⟨s.drive.ready, s.drive.onCylinder, s.drive.seekError, s.drive.fault, s.drive.writeProtected,
      s.drive.ack⟩,
    warning := s.warning }

/-- The cause of a write that a restart tears: none is named, so it is free (R14, R103, R109; log 19). -/
def restartCause (n : Nat) : TearCause :=
  match Config.restartTear n with
  | 0 => .shortWrite
  | 1 => .gateOverrun
  | 2 => .presenceLost
  | 3 => .driveDropped
  | 4 => .driveFault

/-- A gate up at the drive port at a restart: cut and judged before the blocks are reset, so that its events stay (R14,
R103, R109). -/
def cutAtRestart (w : Carried) (s : State) : State :=
  let cause := restartCause s.free
  cutInternal cause w (endGate cause w { s with free := s.free + 1 })

/-- The restart (R165): as power-on, but the event state and the uptime are kept and the restart count rises. -/
def restart (w : Carried) (s : State) : State :=
  let s1 := cutAtRestart w s
  State.initialised s.inputLines s1.ev s.uptime (s.line.restartCount + 1#16) s1.free s.pending

/-- REPLY_SENT (R161, R165). -/
def execReplySent (s : State) (w : Carried := .nothing) : Host.Outcome State Fault Refusal :=
  if s.line.reply.isSome then
    (if s.line.restartDue then .next (restart w s)
     else .next { s with line := { s.line with frame := [], frameError := false, reply := none } })
  else .next s

end Sys2Proof.Machine
end

