-- ==== Sys2Proof/Machine/Tick.lean ====
section
/-! DEFINITION. One tick of 1 ms: every count of the part advances, and what falls due joins the queue (00_scope.md,
Time; log 1, log 3). -/

namespace Sys2Proof.Machine

/-! ## Counts -/

/-- The passed gate of a channel is active. -/
def gateActive (s : State) (c : Chan) : Bool := decide (activeChan s = some c)

/-- A view's idle count at a tick (R44). -/
def tickIdle (active : Bool) (v : View) : Nat :=
  if v.st = .detached then v.idle else if active then 0 else countUp 65535 v.idle

/-- A view's counts at a tick (R40, R43, R44). -/
def tickView (present active : Bool) (v : View) : View :=
  { v with
    wait := if v.st = .requesting ∨ v.st = .deferred then countUp 65535 v.wait else v.wait,
    idle := tickIdle active v,
    debounce := if v.st = .detached ∧ present = true then countUp 50 v.debounce else v.debounce }

/-- The budget clock runs: OWNED with another requester waiting (R78). -/
def clockRuns (s : State) : Bool :=
  match s.arb.st with
  | .owned x => otherWaits s x
  | .free => false
  | .claimed _ _ => false
  | .internal => false
  | .halted => false

/-- The arbiter's counts at a tick (R78, R86). -/
def tickArbiter (s : State) : Arbiter :=
  { s.arb with
    held := if s.arb.stamp.isSome then countUp 65535 s.arb.held else s.arb.held,
    clock := if clockRuns s then countUp s.arb.budget s.arb.clock else s.arb.clock }

/-- Drive Watch's counts at a tick (R143, R144, R145). -/
def tickWatch (ready warning : Bool) (u : Watch) : Watch :=
  let gap := countUp 5 u.gap
  { u with
    gap := gap,
    readyDebounce := if gap = 5 then 0 else if ready then countUp 200 u.readyDebounce else u.readyDebounce,
    clearDebounce := if u.warnAccepted && !warning then countUp 100 u.clearDebounce else u.clearDebounce }

/-- The drive port's and Positioner Control's times at a tick (R13, R93 to R95). -/
def tickTimes (s : State) : State :=
  { s with
    drive := { s.drive with
      strobeTicks := if s.drive.offered.isSome then countUp 5 s.drive.strobeTicks else s.drive.strobeTicks },
    pos := { s.pos with ticks := s.pos.ticks.map (countUp 600) } }

/-- Every count at a tick. -/
def tickCounts (s : State) : State :=
  tickTimes
    { s with
      uptime := s.uptime + 1#32,
      arb := tickArbiter s,
      views := ⟨tickView s.ports.a.present (gateActive s .a) s.views.a,
        tickView s.ports.b.present (gateActive s .b) s.views.b⟩,
      watch := tickWatch s.drive.ready s.warning s.watch }

/-! ## What falls due -/

/-- What a gate now up has carried, as the world gives it (log 4). -/
def carriedNow (s : State) : Carried :=
  if gateUp s then
    ⟨Config.carriedHeader s.free, Config.carriedStarted s.free, Config.carriedData s.free, Config.carriedCheck s.free⟩
  else .nothing

/-- The release interval is due (R77). -/
def releaseDue (s : State) : Bool :=
  match s.arb.st with
  | .owned x =>
    (match s.map.params x with
     | some p => otherWaits s x && decide (p.l ≤ (s.view x).idle)
     | none => false)
  | .free => false
  | .claimed _ _ => false
  | .internal => false
  | .halted => false

/-- The budget expiry is due (R79). -/
def budgetNow (s : State) : Bool := budgetDue s .a || budgetDue s .b

/-- The limit of the positioner's present step, with the command that takes it (R93 to R95). -/
def positionerDue (s : State) : List Instr :=
  match s.pos.st with
  | .seeking => if limitReached 150 s then [.seekNoAnswer] else []
  | .clearing => if limitReached 50 s then [.clearingTimeLimit] else []
  | .recalibrating => if limitReached 600 s then [.recalibrationTimeLimit] else []
  | .idle => []
  | .halted => []

/-- The chain of a channel is due to end (R121). -/
def chainDue (s : State) (c : Chan) : Bool :=
  match s.map.chainLimits with
  | some (limit, _) => chainQuiet s.uptime limit (s.ilock.chain.get c)
  | none => false

/-- The entries due to age out (R122). -/
def agedDue (s : State) : List Instr :=
  match s.map.chainLimits with
  | some (_, m) => (s.ilock.list.filter (agedOut s.uptime m)).map fun e => .interlockAgedOut e.vol e.cyl
  | none => []

/-- The loss of rotation is due (R143, R151). -/
def rotationDue (s : State) : Bool :=
  (s.watch.st.judgesRotation || losesInHold s.watch) && decide (5 ≤ s.watch.gap)

/-- A command where its condition holds. -/
def dueIf (b : Bool) (i : Instr) : List Instr := if b then [i] else []

/-- Everything that has fallen due. -/
def dueNow (s : State) : List Instr :=
  let w := carriedNow s
  dueIf (attachDue s .a) (.attach .a) ++ dueIf (attachDue s .b) (.attach .b)
    ++ dueIf (readyDue s) .readyAccepted
    ++ dueIf (rotationDue s) (.rotationLost w)
    ++ dueIf (clearDue s) .supplyClearAccepted
    ++ dueIf (s.drive.offered.isSome && decide (5 ≤ s.drive.strobeTicks)) (.orderWithdrawn w)
    ++ positionerDue s ++ dueIf (releaseDue s) .releaseInterval ++ dueIf (budgetNow s) .budgetExpiry
    ++ agedDue s ++ dueIf (chainDue s .a) (.interlockChainEnd .a) ++ dueIf (chainDue s .b) (.interlockChainEnd .b)

/-- What has fallen due joins the queue, in the order the world gives (log 3). -/
def queueDue (s : State) : State :=
  let due := dueNow s
  { s with pending := s.pending ++ permuted due.length s.free due, free := s.free + due.length + 1 }

/-- One tick. -/
def tick (s : State) : State := queueDue (tickCounts s)

end Sys2Proof.Machine
end

