-- ==== Sys2Proof/Machine/Dispatch.lean ====
section
/-! DEFINITION. The meaning of each command: one arm for each constructor of Instr. -/

namespace Sys2Proof.Machine

/-- The effect of a command on everything but the queue. -/
def exec (i : Instr) (s : State) : Host.Outcome State Fault Refusal :=
  match i with
  | .powerOn lines => Sys2Proof.Machine.execPowerOn lines s
  | .cylinderOrder c value w => Sys2Proof.Machine.execCylinderOrder c value w s
  | .headOrder c bus w => Sys2Proof.Machine.execHeadOrder c bus w s
  | .recalibrate c => Sys2Proof.Machine.execRecalibrate c s
  | .faultClear c => Sys2Proof.Machine.execFaultClear c s
  | .report c => Sys2Proof.Machine.execReport c s
  | .unknownFunctionCode c code => Sys2Proof.Machine.execUnknownFunctionCode c code s
  | .orderNamingNoKind c bus => Sys2Proof.Machine.execOrderNamingNoKind c bus s
  | .orderStrobeFall c => Sys2Proof.Machine.execOrderStrobeFall c s
  | .gateArrival c line sinceStart => Sys2Proof.Machine.execGateArrival c line sinceStart s
  | .gateDrop c w => Sys2Proof.Machine.execGateDrop c w s
  | .presenceLost c w => Sys2Proof.Machine.execPresenceLost c w s
  | .attach c => Sys2Proof.Machine.execAttach c s
  | .writeClockLost w => Sys2Proof.Machine.execWriteClockLost w s
  | .supplyWriteCutAtCheckWord w => Sys2Proof.Machine.execSupplyWriteCutAtCheckWord w s
  | .sectorStart kind w => Sys2Proof.Machine.execSectorStart kind w s
  | .internalWriteGateRise => Sys2Proof.Machine.execInternalWriteGateRise s
  | .checkError => Sys2Proof.Machine.execCheckError s
  | .internalReadEnd full header data => Sys2Proof.Machine.execInternalReadEnd full header data s
  | .internalWriteEnd => Sys2Proof.Machine.execInternalWriteEnd s
  | .driveOrderAcknowledge => Sys2Proof.Machine.execDriveOrderAcknowledge s
  | .driveAcknowledgeFall => Sys2Proof.Machine.execDriveAcknowledgeFall s
  | .orderWithdrawn w => Sys2Proof.Machine.execOrderWithdrawn w s
  | .onCylinderRise => Sys2Proof.Machine.execOnCylinderRise s
  | .seekErrorRise w => Sys2Proof.Machine.execSeekErrorRise w s
  | .driveFaultLine w => Sys2Proof.Machine.execDriveFaultLine w s
  | .onCylinderFall w => Sys2Proof.Machine.execOnCylinderFall w s
  | .clearingStepSucceeded => Sys2Proof.Machine.execClearingStepSucceeded s
  | .seekNoAnswer => Sys2Proof.Machine.execSeekNoAnswer s
  | .clearingTimeLimit => Sys2Proof.Machine.execClearingTimeLimit s
  | .recalibrationTimeLimit => Sys2Proof.Machine.execRecalibrationTimeLimit s
  | .readyRise => Sys2Proof.Machine.execReadyRise s
  | .readyFall w => Sys2Proof.Machine.execReadyFall w s
  | .readyAccepted => Sys2Proof.Machine.execReadyAccepted s
  | .rotationLost w => Sys2Proof.Machine.execRotationLost w s
  | .supplyWarning w => Sys2Proof.Machine.execSupplyWarning w s
  | .supplyClearAccepted => Sys2Proof.Machine.execSupplyClearAccepted s
  | .releaseInterval => Sys2Proof.Machine.execReleaseInterval s
  | .budgetExpiry => Sys2Proof.Machine.execBudgetExpiry s
  | .interlockChainEnd c => Sys2Proof.Machine.execInterlockChainEnd c s
  | .interlockAgedOut v cyl => Sys2Proof.Machine.execInterlockAgedOut v cyl s
  | .pCommand page => Sys2Proof.Machine.execPCommand page s
  | .rCommand index text => Sys2Proof.Machine.execRCommand index s text
  | .rUptimeLow text => Sys2Proof.Machine.execRUptimeLow s text
  | .rUptimeHigh text => Sys2Proof.Machine.execRUptimeHigh s text
  | .wEnableWord index value text => Sys2Proof.Machine.execWEnableWord index value s text
  | .wStagedImage index value text => Sys2Proof.Machine.execWStagedImage index value s text
  | .wNotWritable index value text => Sys2Proof.Machine.execWNotWritable index value s text
  | .tCommand index text => Sys2Proof.Machine.execTCommand index s text
  | .cCommand => Sys2Proof.Machine.execCCommand s
  | .uCommand => Sys2Proof.Machine.execUCommand s
  | .kCommand => Sys2Proof.Machine.execKCommand s
  | .iCommand => Sys2Proof.Machine.execICommand s
  | .xCommand => Sys2Proof.Machine.execXCommand s
  | .malformedFrame chars => Sys2Proof.Machine.execMalformedFrame chars s
  | .replySent w => Sys2Proof.Machine.execReplySent s w
  | .writeProtectedChange level => Sys2Proof.Machine.execWriteProtectedChange level s
  | .unpassedGateDrop c line => Sys2Proof.Machine.execUnpassedGateDrop c line s
  | .presentRise c => Sys2Proof.Machine.execPresentRise c s
  | .supplyWarningInputClears => Sys2Proof.Machine.execSupplyWarningInputClears s

end Sys2Proof.Machine
end

