-- ==== Sys2Proof/Safety.lean ====
section
/-! DEFINITION. The laws of the part that its rules state of every moment, and the vocabulary of the statements. -/

namespace Sys2Proof.Machine

/-- The alarm contact is closed exactly when some set flag has its alarm enable set (R158). -/
def ContactLaw (s : State) : Prop := s.ev.contact = s.ev.alarmDue

/-- Neither usage count, as held between charges, exceeds 32767 (R86). -/
def UsageLaw (s : State) : Prop := s.arb.usage.a ≤ 32767 ∧ s.arb.usage.b ≤ 32767

/-- The torn sector list holds at most 4 entries and no physical address twice (R114). -/
def TornLaw (s : State) : Prop := s.relay.torn.length ≤ 4 ∧ (s.relay.torn.map (·.addr)).Nodup

/-- The place an interlock entry holds. -/
def Entry.place (e : Entry) : Place := ⟨e.vol, e.cyl⟩

/-- No cylinder appears in two entries, no holder has more than 4 (R119), and a channel has a chain stamp exactly while
it holds an entry (R118). -/
def InterlockLaw (s : State) : Prop :=
  (s.ilock.list.map Entry.place).Nodup
    ∧ (entriesOf s .a).length ≤ 4 ∧ (entriesOf s .b).length ≤ 4
    ∧ s.ilock.chain.a.isSome = !(entriesOf s .a).isEmpty
    ∧ s.ilock.chain.b.isSome = !(entriesOf s .b).isEmpty

/-- A mailbox slot is POSTED exactly when it appears in one channel's notice list, and no list holds a slot twice
(R137). -/
def MailboxLaw (s : State) : Prop :=
  (s.mbox.notice.a ++ s.mbox.notice.b).Nodup
    ∧ ∀ k : Fin 24, posted s k = (s.mbox.notice.a ++ s.mbox.notice.b).contains k

/-- A view's MAILBOX NOTICE cause is present exactly when its notice list is non-empty (R42). -/
def NoticeLaw (s : State) : Prop :=
  s.views.a.causes.mailboxNotice = !s.mbox.notice.a.isEmpty ∧ s.views.b.causes.mailboxNotice = !s.mbox.notice.b.isEmpty

/-- The internal request queue holds at most 2 entries and no kind twice (R67). -/
def QueueLaw (s : State) : Prop := s.arb.queue.length ≤ 2 ∧ s.arb.queue.Nodup

/-- The page selector is 0..12 (11 11.1). -/
def PageLaw (s : State) : Prop := s.line.page ≤ 12

/-- The counts of a view stay in their ranges (02 2.1). -/
def View.inRange (v : View) : Prop := v.wait ≤ 65535 ∧ v.idle ≤ 65535 ∧ v.debounce ≤ 50

/-- The counts of the views, of the arbiter and of Drive Watch stay in their ranges (02 2.1, 04 4.1, 09 9.1). -/
def CountLaw (s : State) : Prop :=
  s.views.a.inRange ∧ s.views.b.inRange ∧ s.arb.held ≤ 65535 ∧ s.watch.readyDebounce ≤ 200
    ∧ s.watch.clearDebounce ≤ 100 ∧ s.watch.gap ≤ 5

/-- A view is POSITIONED or TRANSFERRING. -/
def View.holdsActuator (v : View) : Bool := decide (v.st = .positioned ∨ v.st = .transferring)

/-- At most one view is POSITIONED or TRANSFERRING, and it is the owner's (R71). -/
def OwnerLaw (s : State) : Prop :=
  (s.views.a.holdsActuator = true → s.arb.st = .owned .a) ∧ (s.views.b.holdsActuator = true → s.arb.st = .owned .b)

/-- The two views are never both DEFERRED (R126). -/
def DeferralLaw (s : State) : Prop := ¬(s.views.a.st = .deferred ∧ s.views.b.st = .deferred)

/-- A request record is present while its view is REQUESTING (R65). -/
def RequestLaw (s : State) : Prop :=
  s.arb.request.a.isSome = decide (s.views.a.st = .requesting)
    ∧ s.arb.request.b.isSome = decide (s.views.b.st = .requesting)

/-- A view is TRANSFERRING exactly while the passed gate is its channel's, and its idle count is then 0 (R33, R44); the
passed gate is up at the drive port (R106, R108). -/
def GateLaw (s : State) : Prop :=
  (∀ c, ((s.view c).st = .transferring ↔ s.relay.gate.map (·.chan) = some c)
      ∧ ((s.view c).st = .transferring → (s.view c).idle = 0))
    ∧ (s.relay.gate.isSome = true → gateUp s = true)

/-- An internal transfer is in hand only while the arbiter is INTERNAL (R81, R83). -/
def XferLaw (s : State) : Prop := s.map.xfer ≠ .none → s.arb.st = .internal

/-- A view that requests or holds the actuator has a target, and a DEFERRED one a peer with an interlock (R23, R125). -/
def TargetLaw (s : State) : Prop :=
  ∀ c, ((s.view c).st ∈ [ViewState.requesting, .deferred, .positioned, .transferring] → (s.view c).target.isSome = true)
    ∧ ((s.view c).st = .deferred → entriesOf s (peer c) ≠ [])

/-- The views are DETACHED or NOT READY while Drive Watch is not in RUNNING, but for the write-end wait of a supply hold
(R37, R150). -/
def QuietLaw (s : State) : Prop :=
  s.watch.st ≠ .running → ¬(s.watch.st = .supplyHold ∧ s.watch.writeEndWait = true) →
    ∀ c, (s.view c).st = .detached ∨ (s.view c).st = .notReady

/-- The parameters of a VALID map, and of the map a commit is to write, are in their ranges (R53, R62). -/
def ParamLaw (s : State) : Prop :=
  (s.map.mapState = .valid → paramsInRange s.map.activeMap = true)
    ∧ ∀ imgs, s.map.commit = some imgs → paramsInRange imgs.map = true

/-- Who has the actuator, and what keeps it so: the owner alone holds it, request records stand beside REQUESTING
views, the views are never both DEFERRED (R65, R71, R126). -/
def Ownership (s : State) : Prop :=
  OwnerLaw s ∧ RequestLaw s ∧ DeferralLaw s ∧ GateLaw s ∧ XferLaw s ∧ TargetLaw s ∧ QuietLaw s ∧ ParamLaw s

/-! ## Vocabulary of the statements -/

/-- The parts of the state that a statement's frame speaks of. -/
inductive Part where
  | view (c : Chan)
  | port (c : Chan)
  | map | arb | pos | drive | relay | ilock | mbox | watch | ev | line | warning | uptime | pending
  deriving DecidableEq, Repr

/-- A part of the state is the same in two states. -/
def Part.Same (s t : State) : Part → Prop
  | .view c => t.view c = s.view c
  | .port c => t.port c = s.port c
  | .map => t.map = s.map
  | .arb => t.arb = s.arb
  | .pos => t.pos = s.pos
  | .drive => t.drive = s.drive
  | .relay => t.relay = s.relay
  | .ilock => t.ilock = s.ilock
  | .mbox => t.mbox = s.mbox
  | .watch => t.watch = s.watch
  | .ev => t.ev = s.ev
  | .line => t.line = s.line
  | .warning => t.warning = s.warning
  | .uptime => t.uptime = s.uptime
  | .pending => t.pending = s.pending

/-- Every part but those listed is unchanged from `s` to `t`. -/
def TouchesOnly (touched : List Part) (s t : State) : Prop := ∀ p : Part, p ∉ touched → p.Same s t

/-- What the end of a grant and the decision after it may reach: the views, and every block but Drive Watch and the
Mailbox Unit. -/
def Part.reached : List Part := [.view .a, .view .b, .map, .arb, .pos, .drive, .relay, .ilock, .ev]

/-- Of the flags, only those listed may have been set, each one held before keeps its record, and no enable has
changed (R155, R156). -/
def OnlyRaises (fs : List Flag) (s t : State) : Prop :=
  t.ev.recordEnable = s.ev.recordEnable ∧ t.ev.alarmEnable = s.ev.alarmEnable
    ∧ ∀ f : Flag, f ∉ fs ∨ (s.ev.record f).isSome = true → t.ev.record f = s.ev.record f

/-- An order at the port is taken: the view is not DETACHED, and ORDER ACKNOWLEDGE is down (R2, R3). -/
abbrev TakesOrders (s : State) (c : Chan) : Prop := (s.view c).st ≠ .detached ∧ (s.port c).ack = false

/-- The part after an acknowledged order at a port that has left the view so: strobe and acknowledgement high, the idle
count 0 (R2, R44). -/
def orderDone (c : Chan) (v : View) (s : State) : State :=
  setPort c { s.port c with strobe := true, ack := true } (setView c { v with idle := 0 } s)

/-- The part after a frame of these characters that has been answered (R161). -/
def answered (text : List (BitVec 8)) (r : Reply) (s : State) : State :=
  { s with line := { s.line with frame := text, frameError := false, reply := some r } }

/-- An order stands at the drive port, offered or waiting. -/
abbrev OrderAsked (o : DriveOrder) (s : State) : Prop := s.drive.offered = some o ∨ o ∈ s.drive.waiting

/-- The flag is set and holds a record of this detail (R155, R156). -/
abbrev Recorded (f : Flag) (detail : Nat) (s : State) : Prop :=
  (s.ev.record f).map (·.detail) = some (BitVec.ofNat 16 detail)

/-- The flag takes its next occurrence: clear, and its record enable set (R155). -/
abbrev Open (f : Flag) (s : State) : Prop := s.ev.record f = none ∧ s.ev.recordEnable.get f = true

/-- A logical cylinder is mapped for a channel and volume to this target (R22, R49). -/
abbrev Maps (s : State) (c : Chan) (v : Vol) (cyl : Nat) (t : Target) : Prop :=
  usableVol s v = true ∧ cyl ≤ 407
    ∧ ∃ e ∈ lookup (s.map.extents c) v cyl, classOf e.code = some t.cls
        ∧ t.logical = cyl ∧ t.physical = e.ps + (cyl - e.ls) ∧ t.permit = e.permit

/-- A logical cylinder is unmapped for a channel and volume that is usable (R22, R49). -/
abbrev Unmapped (s : State) (c : Chan) (v : Vol) (cyl : Nat) : Prop :=
  usableVol s v = true ∧ (407 < cyl ∨ lookup (s.map.extents c) v cyl = none)

/-- Another requester waits beside a channel: the peer's record, or an internal request (R66). -/
abbrev Waits (s : State) (x : Chan) : Prop := s.arb.request.get (peer x) ≠ none ∨ s.arb.queue ≠ []

/-- The arbiter leaves a channel's request waiting: it is INTERNAL, HALTED, has a claim of the peer, or is owned by the
peer, for whom waiting does not begin with this request, or whose idle count is short of its release interval (R65, R68,
R77). -/
abbrev KeepsWaiting (s : State) (c : Chan) : Prop :=
  s.arb.st = .internal ∨ s.arb.st = .halted ∨ (∃ k, s.arb.st = .claimed (peer c) k)
    ∨ (s.arb.st = .owned (peer c)
      ∧ (Waits s (peer c) ∨ (s.view (peer c)).idle < (paramsOf s.map.activeMap (peer c)).l))

/-- The peer owns the actuator, POSITIONED, has been idle for the release interval of the map in effect, and nobody waits:
a channel's request ends its grant at the arrival (R65, R77). -/
abbrev EndsGrantAtArrival (s : State) (c : Chan) : Prop :=
  s.arb.st = .owned (peer c) ∧ (s.view (peer c)).st = .positioned ∧ ¬Waits s (peer c)
    ∧ s.arb.request.get (peer c) = none ∧ s.map.mapState = .valid
    ∧ (paramsOf s.map.activeMap (peer c)).l ≤ (s.view (peer c)).idle

/-- The arbiter once a REQUESTING channel's request is withdrawn: the record goes, and where the peer owns the actuator and
nobody else waits, the budget clock is 0 and the release-pending mark clear (R65, R78, R79). -/
def withoutRequest (s : State) (c : Chan) : Arbiter :=
  let ends := s.arb.st = .owned (peer c) ∧ s.arb.request.get c ≠ none ∧ s.arb.queue = []
  { s.arb with
    request := s.arb.request.set c none,
    clock := if ends then 0 else s.arb.clock,
    releasePending := if ends then false else s.arb.releasePending }

/-- A HEAD order of the relay's for a channel's view awaits its acknowledgement at the drive port (R32, R104). -/
abbrev HeadAwaited (s : State) (c : Chan) : Prop := ∃ sel, OrderAsked (.head sel (.relay c)) s

/-- A passed gate of a channel is active, its view TRANSFERRING, with no end of the grant marked and no supply hold
waiting for it (R29, R79, R150). -/
abbrev PlainGate (s : State) (c : Chan) (g : GateRecord) : Prop :=
  s.relay.gate = some g ∧ g.chan = c ∧ (s.view c).st = .transferring
    ∧ ¬(s.arb.st = .owned c ∧ s.arb.releasePending = true) ∧ s.watch.st ≠ .supplyHold

/-- A full write into SHARED space, which R119 has reported to the Interlock Unit (R109 step 3). -/
abbrev FullShared (g : GateRecord) (w : Carried) : Prop :=
  g.kind ≠ .read ∧ reachedCheckWord w = true ∧ g.cls = .shared

/-- A passed gate is judged as one that has ended for a cause (R109 steps 1 and 2, R114, R115): its record is
gone. A read leaves the torn list alone; a full write takes its address off it; a write not yet full is torn, the newest
entry, with E7, and with PEER TORN WRITE where the peer has the cylinder in SHARED or MAILBOX space. -/
def GateJudged (cause : TearCause) (g : GateRecord) (w : Carried) (s u : State) : Prop :=
  let kept := s.relay.torn.filter fun e => decide (e.addr ≠ g.addr)
  u.relay.gate = none
    ∧ (g.kind = .read → u.relay.torn = s.relay.torn)
    ∧ (g.kind ≠ .read → reachedCheckWord w = true → u.relay.torn = kept)
    ∧ (g.kind ≠ .read → reachedCheckWord w = false →
        (TornLaw s →
            u.relay.torn = (if kept.length < 4 then kept else kept.tail) ++ [⟨g.addr, .chan g.chan, cause, s.uptime⟩])
          ∧ (Open (.chan g.chan .tornSector) s →
              Recorded (.chan g.chan .tornSector)
                ([TearCause.shortWrite, .gateOverrun, .presenceLost, .driveDropped, .driveFault].idxOf cause * 2 ^ 13
                  + wordsPassed w) u)
          ∧ ((s.view (peer g.chan)).st ≠ .detached → spanHas (s.map.extents (peer g.chan)) g.addr.vol g.addr.cyl
                (fun k => decide (k = .shared ∨ k = .mailbox)) = true →
              (u.view (peer g.chan)).causes.peerTornWrite = true))

/-- The drive is given up for positioning: the arbiter and Positioner Control HALTED, the position UNKNOWN, every view
that was not DETACHED in NOT READY (R37, R83, R90). -/
def Down (s t : State) : Prop :=
  t.arb.st = .halted ∧ t.arb.stamp = none ∧ t.arb.held = 0 ∧ t.arb.clock = 0 ∧ t.arb.releasePending = false
    ∧ t.pos.st = .halted ∧ t.pos.cyl = none ∧ t.pos.lastSel = none ∧ t.pos.request = none ∧ t.pos.held = none
    ∧ ∀ c, (s.view c).st ≠ .detached → (t.view c).st = .notReady

/-! ## What falls due -/

/-- A command falls due at a tick that has left the counts so; `w` is what a gate up at the drive port has carried (R13,
R40, R77, R79, R93 to R95, R121, R122, R143 to R145, R151; log 12, log 32). -/
def FallsDue (w : Carried) (t : State) : Instr → Prop
  | .attach c => (t.view c).st = .detached ∧ (t.port c).present = true ∧ 50 ≤ (t.view c).debounce
  | .readyAccepted => t.drive.ready = true ∧ t.watch.readyAccepted = false ∧ 200 ≤ t.watch.readyDebounce
  | .rotationLost x =>
    x = w ∧ 5 ≤ t.watch.gap
      ∧ (t.watch.st ∈ [WatchState.readingMap, .readingLabel, .running]
        ∨ (t.watch.st = .supplyHold ∧ t.watch.readyAccepted = true))
  | .supplyClearAccepted => t.watch.warnAccepted = true ∧ t.warning = false ∧ 100 ≤ t.watch.clearDebounce
  | .orderWithdrawn x => x = w ∧ t.drive.offered ≠ none ∧ 5 ≤ t.drive.strobeTicks
  | .seekNoAnswer => t.pos.st = .seeking ∧ ∃ n ∈ t.pos.ticks, 150 ≤ n
  | .clearingTimeLimit => t.pos.st = .clearing ∧ ∃ n ∈ t.pos.ticks, 50 ≤ n
  | .recalibrationTimeLimit => t.pos.st = .recalibrating ∧ ∃ n ∈ t.pos.ticks, 600 ≤ n
  | .releaseInterval =>
    t.map.mapState = .valid
      ∧ ∃ x, t.arb.st = .owned x ∧ Waits t x ∧ (paramsOf t.map.activeMap x).l ≤ (t.view x).idle
  | .budgetExpiry =>
    ∃ x, t.arb.st = .owned x ∧ Waits t x ∧ t.arb.budget ≤ t.arb.clock ∧ t.arb.releasePending = false
  | .interlockAgedOut v cyl =>
    t.map.mapState = .valid
      ∧ ∃ e ∈ t.ilock.list, e.vol = v ∧ e.cyl = cyl ∧ imageWord t.map.activeMap 11 ≤ (t.uptime - e.first).toNat
  | .interlockChainEnd c =>
    t.map.mapState = .valid
      ∧ ∃ stamp ∈ t.ilock.chain.get c, imageWord t.map.activeMap 10 ≤ (t.uptime - stamp).toNat
  | _ => False

/-! ## Ends of grants -/

/-- A fresh grant has begun at a decision: the winner z, its place, its budget from the active map (R71). -/
def GrantBegun (z : Chan) (place : Place) (s u : State) : Prop :=
  u.arb.gLast = z ∧ u.arb.stamp = some s.uptime ∧ u.arb.held = 0 ∧ u.arb.clock = 0 ∧ u.arb.releasePending = false
    ∧ u.arb.budget = (paramsOf s.map.activeMap z).t
    ∧ (s.pos.cyl = some place.cyl → u.arb.st = .owned z ∧ (u.view z).st = .positioned)
    ∧ (s.pos.cyl ≠ some place.cyl → u.arb.st = .claimed z .fresh ∧ u.arb.awaited = some place.cyl)

/-- The grant of x has ended for its waiting peer: the charge, STANDBY with the target kept, the peer's grant begun (R36,
R71, R80). -/
def GrantPassed (x : Chan) (p : Place) (s u : State) : Prop :=
  (u.view x).st = .standby ∧ (u.view x).target = (s.view x).target
    ∧ u.arb.usage = chargedUsage s.arb.usage x s.arb.held ∧ GrantBegun (peer x) p s u

/-- A grant of x ended by budget: PREEMPTED, and E24 with the held time (R79, R89). -/
def Preempted (x : Chan) (s u : State) : Prop :=
  ((s.view x).st ≠ .detached → (u.view x).causes.preempted = true)
    ∧ (Open (.chan x .budgetPreemption) s → Recorded (.chan x .budgetPreemption) s.arb.held u)

/-- The grant of c has ended at its re-seek to a place, another requester waiting (R76, R80): it is charged, and the
record stays. An internal request is decided for first. With the peer's record alone beside it, a fresh grant begins for
the peer where it is past its wait limit, c's wait being 0, and else for the winner of the usage comparison; the other
record stays. -/
def ReseekDecided (c : Chan) (place : Place) (s u : State) : Prop :=
  let usage := chargedUsage s.arb.usage c s.arb.held
  u.arb.usage = usage
    ∧ (s.arb.queue ≠ [] →
        u.arb = { s.arb with
            st := .internal, request := s.arb.request.set c (some place), usage := usage, stamp := none, clock := 0,
            releasePending := false, awaited := if s.pos.cyl = some 0 then none else some 0 }
          ∧ (u.view c).st = .requesting)
    ∧ ∀ p, s.arb.queue = [] → s.arb.request.get (peer c) = some p → s.map.mapState = .valid →
        let limit := (paramsOf s.map.activeMap (peer c)).lw
        let pA := usage.a * (paramsOf s.map.activeMap .b).w
        let pB := usage.b * (paramsOf s.map.activeMap .a).w
        let z := if limit ≠ 0 ∧ limit ≤ (s.view (peer c)).wait then peer c
          else if pA < pB then .a else if pB < pA then .b else peer s.arb.gLast
        GrantBegun z (if z = c then place else p) s u
          ∧ u.arb.request.get (peer z) = some (if z = c then p else place)
          ∧ (z ≠ c → (u.view c).st = .requesting)

/-! ## What validation judges -/

/-- The first word of a channel's section in the map (F) and in the label (R) (R171). -/
def sectionStart : Vol → Chan → Nat
  | .f, .a => 12
  | .f, .b => 28
  | .r, .a => 2
  | .r, .b => 18

/-- The extent whose flags word is word k holds what the words spell (R171, R172). -/
abbrev SpeltAt (img : Image) (k : Nat) (e : Extent) : Prop :=
  e.inUse = (imageWord img k).testBit 15 ∧ e.vol = (if (imageWord img k).testBit 8 then .r else .f)
    ∧ e.permit = (imageWord img k).testBit 4 ∧ e.code = imageWord img k % 8 ∧ e.ls = imageWord img (k + 1)
    ∧ e.n = imageWord img (k + 2) ∧ e.ps = imageWord img (k + 3)

/-- The eight entries of an image of a volume, each with its channel (R171). -/
def entriesIn (home : Vol) (img : Image) : List Claimed :=
  [Chan.a, .b].flatMap fun c => (List.range 4).map fun j => ⟨c, extentAt img (sectionStart home c + 4 * j)⟩

/-- The entries of the images judged together, each with the volume of its image (R52). -/
def entriesTogether (mp lb : Option Image) : List (Vol × Claimed) :=
  (mp.toList.flatMap fun m => (entriesIn .f m).map (Prod.mk .f))
    ++ lb.toList.flatMap fun l => (entriesIn .r l).map (Prod.mk .r)

/-- V4 (R54). -/
abbrev Malformed (home : Vol) (e : Extent) : Prop :=
  e.inUse = true ∧ (e.n = 0 ∨ 407 < e.ls + e.n - 1 ∨ 407 < e.ps + e.n - 1 ∨ e.ps = 0 ∨ e.vol ≠ home)

/-- An entry that V5, V6 and V7 judge (R52). -/
abbrev Judged (x : Vol × Claimed) : Prop := x.2.ext.inUse = true ∧ x.2.ext.code < 4 ∧ ¬Malformed x.1 x.2.ext

/-- The entries that V5, V6 and V7 judge (R52). -/
def judgedTogether (mp lb : Option Image) : List Claimed :=
  ((entriesTogether mp lb).filter fun x => decide (Judged x)).map (·.2)

/-- Two spans of cylinders share one: each one's start is at or below the other's end (R55). -/
abbrev SpansMeet (s n s' n' : Nat) : Prop := s < s' + n' ∧ s' < s + n

/-- Two entries overlap logically (R55). -/
abbrev OverlapLogically (x y : Claimed) : Prop :=
  x.chan = y.chan ∧ x.ext.vol = y.ext.vol ∧ SpansMeet x.ext.ls x.ext.n y.ext.ls y.ext.n

/-- Two entries make a forbidden physical overlap: of the pairs without a MAILBOX entry, those with a READ-WRITE one
(R56). -/
abbrev OverlapPhysically (x y : Claimed) : Prop :=
  x.chan ≠ y.chan ∧ x.ext.vol = y.ext.vol ∧ SpansMeet x.ext.ps x.ext.n y.ext.ps y.ext.n
    ∧ x.ext.code ≠ 3 ∧ y.ext.code ≠ 3 ∧ (x.ext.code = 0 ∨ y.ext.code = 0)

/-- The mailbox rules are broken, rule by rule (R57). -/
def MailboxRulesBroken (es : List Claimed) : Prop :=
  let boxes := es.filter fun x => decide (x.ext.code = 3)
  ¬((∃ x ∈ boxes, x.chan = .a) ↔ ∃ x ∈ boxes, x.chan = .b)
    ∨ (∃ c ∈ [Chan.a, .b], 1 < (boxes.filter fun x => decide (x.chan = c)).length)
    ∨ (∃ x ∈ boxes, x.ext.vol = .r)
    ∨ (∃ x ∈ boxes, x.ext.n ≠ 1)
    ∨ (∃ x ∈ boxes, ∃ y ∈ boxes, x.chan ≠ y.chan ∧ x.ext.ps ≠ y.ext.ps)
    ∨ (∃ x ∈ boxes, ∃ y ∈ es, y.ext.code ≠ 3 ∧ y.ext.vol = .f ∧ y.ext.ps ≤ x.ext.ps ∧ x.ext.ps < y.ext.ps + y.ext.n)

/-- The sum of the 256 words is 0 modulo 65536 (R51). -/
abbrev SumsToZero (img : Image) : Prop := (img.toList.map (·.toNat)).sum % 65536 = 0

/-- Every parameter of a map image is in its range (03 3.3, R53). -/
abbrev ParamsLawful (m : Image) : Prop :=
  (∀ k ∈ [2, 6], 1 ≤ imageWord m k ∧ imageWord m k ≤ 15 ∧ 20 ≤ imageWord m (k + 1) ∧ imageWord m (k + 1) ≤ 2000
      ∧ 2 ≤ imageWord m (k + 2) ∧ imageWord m (k + 2) ≤ 250
      ∧ (imageWord m (k + 3) = 0 ∨ (50 ≤ imageWord m (k + 3) ∧ imageWord m (k + 3) ≤ 5000)))
    ∧ 5 ≤ imageWord m 10 ∧ imageWord m 10 ≤ 250 ∧ 100 ≤ imageWord m 11 ∧ imageWord m 11 ≤ 10000

/-- A reason of validation holds of a map image, a label image, or the two together (R52 to R57). -/
def Reason (mp lb : Option Image) : Nat → Prop
  | 1 => (∃ m ∈ mp.toList, imageWord m 0 ≠ 0x5A3C) ∨ ∃ l ∈ lb.toList, imageWord l 0 ≠ 0x3CA5
  | 2 => ∃ img ∈ mp.toList ++ lb.toList, ¬SumsToZero img
  | 3 => ∃ m ∈ mp.toList, ¬ParamsLawful m
  | 4 => ∃ x ∈ entriesTogether mp lb, Malformed x.1 x.2.ext
  | 5 => ¬(judgedTogether mp lb).Pairwise fun x y => ¬OverlapLogically x y
  | 6 => ¬(judgedTogether mp lb).Pairwise fun x y => ¬OverlapPhysically x y
  | 7 => MailboxRulesBroken (judgedTogether mp lb)
  | 8 => ∃ x ∈ entriesTogether mp lb, x.2.ext.inUse = true ∧ 4 ≤ x.2.ext.code
  | _ => False

/-- A reason is the lowest that holds (R52). -/
abbrev LowestReason (mp lb : Option Image) (n : Nat) : Prop := Reason mp lb n ∧ ∀ k, k < n → ¬Reason mp lb k

/-! ## What the pages show -/

/-- A value shown as its position, counted from 0, in the list where it is specified (R173). -/
def position {α : Type} [BEq α] (l : List α) (x : α) : Word := BitVec.ofNat 16 (l.idxOf x)

/-- A number shown, or 0xFFFF where it is absent (R173). -/
def shown : Option Nat → Word
  | some n => BitVec.ofNat 16 n
  | none => 0xFFFF#16

/-- A stamp in two words, low then high (R173). -/
def lowHigh (t : Stamp) : List Word := [t.extractLsb' 0 16, t.extractLsb' 16 16]

/-- A mark as 0 or 1. -/
def mark (b : Bool) : Word := if b then 1#16 else 0#16

/-- A channel, 0 A, 1 B (R173). -/
def channelWord : Chan → Word
  | .a => 0#16
  | .b => 1#16

/-- A page has these words and no more. -/
abbrev PageIs (s : State) (page : Nat) (ws : List Word) : Prop :=
  pageLength page = ws.length ∧ (List.range ws.length).map (pageWord s page) = ws

/-- Page 0 (R162, R173; log 26, log 28). -/
def summaryPage (s : State) : List Word :=
  [position [WatchState.spunDown, .spinningUp, .calibrating, .readingMap, .readingLabel, .running, .supplyHold,
      .driveFault] s.watch.st,
    match s.arb.st with
    | .free => 0#16
    | .claimed _ _ => 1#16
    | .owned _ => 2#16
    | .internal => 3#16
    | .halted => 4#16,
    match s.arb.st, s.arb.queue.head? with
    | .claimed c _, _ => channelWord c
    | .owned c, _ => channelWord c
    | .internal, some k => position [InternalKind.labelRead, .mapRead, .mapWrite] k
    | _, _ => 0xFFFF#16,
    position [MapState.valid, .missing] s.map.mapState,
    position [LabelState.valid, .unlabelled, .absent] s.map.labelState,
    position [PosState.idle, .seeking, .clearing, .recalibrating, .halted] s.pos.st,
    shown s.pos.cyl,
    match s.pos.last with
    | some o => position [SeekOutcome.reached, .seekError, .noAnswer, .fault, .contradictory, .failedClaim, .calibrated,
        .driveFault] o.outcome + 1#16
    | none => 0xFFFF#16,
    shown (s.pos.last.bind (·.cyl)), mark s.map.commit.isSome, s.line.restartCount, BitVec.ofNat 16 s.line.page,
    s.uptime.extractLsb' 0 16, s.line.latch.getD (s.uptime.extractLsb' 16 16)]

/-- Pages 1 and 2 (R162, R173; log 26, log 48, log 49). -/
def viewWords (v : View) : List Word :=
  [position [ViewState.detached, .notReady, .standby, .requesting, .deferred, .positioned, .transferring, .faulted] v.st,
    BitVec.ofNat 16 ((if v.sel.vol = .r then 0x8000 else 0) + if v.sel.head = .h1 then 0x4000 else 0),
    shown (v.target.map (·.logical)), shown (v.target.map (·.physical)),
    match v.target with
    | some t => position [ExtClass.readWrite, .readOnly, .shared, .mailbox] t.cls
    | none => 0xFFFF#16,
    mark v.seekError,
    if v.fault = .none then 0xFFFF#16
    else position [FaultCause.none, .protectedWrite, .gateOverrun, .orderDuringGate, .formatRefused] v.fault,
    BitVec.ofNat 16 (v.causes.bits + (if v.slotProt then 2 else 0) + if v.causes = .empty then 0 else 1),
    BitVec.ofNat 16 v.wait, BitVec.ofNat 16 v.idle, BitVec.ofNat 16 v.debounce]

/-- Page 4 (R173; log 28). -/
def interlockWords (u : Interlock) : List Word :=
  ((List.range 8).flatMap fun k =>
      match u.list[k]? with
      | some e =>
        [BitVec.ofNat 16 (0x8000 + (if e.vol = .r then 0x100 else 0) + if e.holder = .b then 1 else 0),
          BitVec.ofNat 16 e.cyl] ++ lowHigh e.first ++ lowHigh e.last ++ [BitVec.ofNat 16 e.sectors]
      | none => List.replicate 7 0#16)
    ++ ([u.chain.a, u.chain.b].flatMap fun stamp =>
      match stamp with
      | some t => lowHigh t
      | none => [0xFFFF#16, 0xFFFF#16])
    ++ [u.deferred.a, u.deferred.b].flatMap fun request =>
      match request with
      | some p => [if p.vol = .r then 0x8000#16 else 0#16, BitVec.ofNat 16 p.cyl]
      | none => [0xFFFF#16, 0xFFFF#16]

/-- Page 5 (R173). -/
def mailboxWords (u : Mailbox) : List Word :=
  ((List.finRange 24).flatMap fun k =>
      match u.slots[k] with
      | some p =>
        [BitVec.ofNat 16 (0x8000 + (if p.gap then 0x100 else 0) + if p.sender = .b then 1 else 0),
          BitVec.ofNat 16 p.seq.toNat] ++ lowHigh p.stamp
      | none => List.replicate 4 0#16)
    ++ ((List.range 24).map fun k => shown (u.notice.a[k]?.map (·.val)))
    ++ ((List.range 24).map fun k => shown (u.notice.b[k]?.map (·.val)))
    ++ [shown (u.expected.a.map (·.toNat)), shown (u.expected.b.map (·.toNat))]

/-- Page 6 (R173). -/
def tornListWords (l : List TornEntry) : List Word :=
  (List.range 4).flatMap fun k =>
    match l[k]? with
    | some e =>
      [BitVec.ofNat 16 (0x8000
          + (match e.writer with
            | .chan .a => 0
            | .chan .b => 0x1000
            | .internal => 0x2000)
          + [TearCause.shortWrite, .gateOverrun, .presenceLost, .driveDropped, .driveFault].idxOf e.cause),
        BitVec.ofNat 16 ((if e.addr.vol = .r then 0x8000 else 0) + (if e.addr.head = .h1 then 0x4000 else 0)
          + e.addr.sector.val * 0x200),
        BitVec.ofNat 16 e.addr.cyl] ++ lowHigh e.stamp
    | none => List.replicate 5 0#16

/-- A flag word shows exactly the flags whose records are held, a run of flags from bit 0 on (R156, R173). -/
abbrev ShowsFlags (ev : EventUnit) (w : Word) (run : List Flag) : Prop :=
  ∀ k, k < 16 → w.getLsbD k = (run[k]?.any fun f => (ev.record f).isSome)

/-- The flag words are those of page 7: A's flags, B's, the single ones, in the order of their bits (R173). -/
abbrev FlagWordsShown (ev : EventUnit) : Prop :=
  ShowsFlags ev (flagWord ev 0) (ChanEvent.all.map (.chan .a))
    ∧ ShowsFlags ev (flagWord ev 1) (ChanEvent.all.map (.chan .b))
    ∧ ShowsFlags ev (flagWord ev 2) (SoleEvent.all.map .sole)

/-- The two words of a record that say its flag and its address (R156, R173). With a cylinder and no volume, bit 14 of
the first and bit 15 of the second are open (log 25). Every address an event carries has one of these forms. -/
def RecordHead (r : FirstRecord) (w0 w1 : Word) : Prop :=
  let chan := match r.chan with
    | none => 0
    | some .a => 0x40
    | some .b => 0x80
  match r.addr with
  | ⟨some v, some cyl, h, k⟩ =>
    w0 = BitVec.ofNat 16 (0x8000 + 0x4000 + (if h.isSome then 0x2000 else 0) + (if k.isSome then 0x1000 else 0) + chan
        + r.kind)
      ∧ w1 = BitVec.ofNat 16 ((if v = .r then 0x8000 else 0) + (if h = some .h1 then 0x4000 else 0)
        + (match k with
          | some sector => sector.val * 0x200
          | none => 0) + cyl)
  | ⟨none, some cyl, none, none⟩ =>
    ∃ b v : Bool, w0 = BitVec.ofNat 16 (0x8000 + (if b then 0x4000 else 0) + chan + r.kind)
      ∧ w1 = BitVec.ofNat 16 ((if v then 0x8000 else 0) + cyl)
  | ⟨none, none, none, none⟩ => w0 = BitVec.ofNat 16 (0x8000 + chan + r.kind) ∧ w1 = 0#16
  | _ => True

/-- Page 8: five words for each flag, in page 7's order (R173). -/
def RecordsShown (s : State) : Prop :=
  pageLength 8 = 215 ∧ ∀ k f, Flag.all[k]? = some f →
    match s.ev.record f with
    | some r =>
      RecordHead r (pageWord s 8 (5 * k)) (pageWord s 8 (5 * k + 1))
        ∧ [pageWord s 8 (5 * k + 2), pageWord s 8 (5 * k + 3), pageWord s 8 (5 * k + 4)]
          = r.detail :: lowHigh r.stamp
    | none => ∀ j, j < 5 → pageWord s 8 (5 * k + j) = 0#16

/-- Every page shows what R173 puts in its words. -/
def PagesShown (s : State) : Prop :=
  PageIs s 0 (summaryPage s) ∧ PageIs s 1 (viewWords (s.view .a)) ∧ PageIs s 2 (viewWords (s.view .b))
    ∧ PageIs s 3 [BitVec.ofNat 16 s.arb.usage.a, BitVec.ofNat 16 s.arb.usage.b, channelWord s.arb.gLast,
        BitVec.ofNat 16 (s.view .a).wait, BitVec.ofNat 16 (s.view .b).wait]
    ∧ PageIs s 4 (interlockWords s.ilock) ∧ PageIs s 5 (mailboxWords s.mbox) ∧ PageIs s 6 (tornListWords s.relay.torn)
    ∧ FlagWordsShown s.ev
    ∧ PageIs s 7 ([flagWord s.ev 0, flagWord s.ev 1, flagWord s.ev 2]
        ++ [s.ev.recordEnable.a.setWidth 16, s.ev.recordEnable.b.setWidth 16, s.ev.recordEnable.sole.setWidth 16]
        ++ [s.ev.alarmEnable.a.setWidth 16, s.ev.alarmEnable.b.setWidth 16, s.ev.alarmEnable.sole.setWidth 16])
    ∧ RecordsShown s
    ∧ PageIs s 9 s.map.stagedMap.toList ∧ PageIs s 10 s.map.activeMap.toList ∧ PageIs s 11 s.map.stagedLabel.toList
    ∧ PageIs s 12 (s.map.heldLabel.getD .zero).toList

end Sys2Proof.Machine
end

