-- ==== Sys2Proof/Certificates/Slice0/Obligations.lean ====
section
/-! DEFINITION. The statements for the provers. -/

open Sys2Proof Sys2Proof.Machine

/-! ## Steps and resets -/

/-- A step with a command at the front of the queue is that command's meaning on the queue's rest. -/
def Obligations.StepRunsFrontCommand : Prop :=
  ∀ (i : Instr) (rest : List Instr) (s : State),
    step { s with pending := i :: rest } = exec i { s with pending := rest }

/-- A step on an empty queue is one tick (the model's choice, log 1): every count of the part advances (R43, R44, R78,
R86), the READY debounce being 0 again while the pulse gap stands at 5 (R143, R144, log 32); the commands that fall due,
and no others, join the queue: ATTACH (R40), READY_ACCEPTED (R144), ROTATION_LOST (R143, in SUPPLY HOLD R151 and log 12),
SUPPLY_CLEAR_ACCEPTED (R145), ORDER_WITHDRAWN (R13), SEEK_NO_ANSWER (R93), the two step limits (R94, R95),
RELEASE_INTERVAL (R77), BUDGET_EXPIRY (R78, R79) and the two interlock expiries (R121, R122); and nothing else changes. -/
def Obligations.EmptyQueueStepIsOneTick : Prop :=
  ∀ s : State, s.pending = [] →
    ∃ t, step s = .next t ∧ t.uptime = s.uptime + 1#32
      ∧ (∀ c, t.view c =
          { s.view c with
            wait := if (s.view c).st = .requesting ∨ (s.view c).st = .deferred then countUp 65535 (s.view c).wait
              else (s.view c).wait,
            idle := if (s.view c).st = .detached then (s.view c).idle
              else if s.relay.gate.map (·.chan) = some c then 0 else countUp 65535 (s.view c).idle,
            debounce := if (s.view c).st = .detached ∧ (s.port c).present = true then countUp 50 (s.view c).debounce
              else (s.view c).debounce })
      ∧ t.arb = { s.arb with
          held := if s.arb.stamp.isSome then countUp 65535 s.arb.held else s.arb.held,
          clock := t.arb.clock }
      ∧ (∀ x, s.arb.st = .owned x →
          t.arb.clock = if otherWaits s x then countUp s.arb.budget s.arb.clock else s.arb.clock)
      ∧ ((∀ x, s.arb.st ≠ .owned x) → t.arb.clock = s.arb.clock)
      ∧ t.watch = { s.watch with
          gap := countUp 5 s.watch.gap,
          readyDebounce := if countUp 5 s.watch.gap = 5 then 0
            else if s.drive.ready then countUp 200 s.watch.readyDebounce else s.watch.readyDebounce,
          clearDebounce := if s.watch.warnAccepted && !s.warning then countUp 100 s.watch.clearDebounce
            else s.watch.clearDebounce }
      ∧ t.pos = { s.pos with ticks := s.pos.ticks.map (countUp 600) }
      ∧ t.drive = { s.drive with
          strobeTicks := if s.drive.offered.isSome then countUp 5 s.drive.strobeTicks else s.drive.strobeTicks }
      ∧ (∃ w : Carried, (s.drive.readGate = false → s.drive.writeGate = false → w = .nothing)
          ∧ ∀ i : Instr, i ∈ t.pending ↔ FallsDue w t i)
      ∧ (∀ c, (s.view c).st = .detached → (s.port c).present = true → 49 ≤ (s.view c).debounce →
          Instr.attach c ∈ t.pending)
      ∧ (s.pos.st = .seeking → s.pos.ticks = some 149 → Instr.seekNoAnswer ∈ t.pending)
      ∧ t.ports = s.ports ∧ TouchesOnly
          [.view .a, .view .b, .arb, .pos, .drive, .watch, .uptime, .pending] s t

/-- What POWER_ON leaves, whatever stood before: every block at its initial values, Drive Watch by the lines, the channel
ports inactive, the frame buffer empty, and of the flags E29 alone, with the power-on detail, at uptime 0 (the model's
choice, log 47); the record enables all set, the alarm enables of R160, the contact open. That no order waits at the drive
port and no reply is being sent is log 7. The input lines stand as the command gives them, whatever they are (log 6, log
35). -/
def Obligations.PowerOnSetsEveryBlock : Prop :=
  ∀ (lines : InputLines) (s : State),
    ∃ t, exec (.powerOn lines) s = .next t
      ∧ (∀ c, t.view c =
          { st := .detached, sel := ⟨.f, .h0⟩, target := none, seekError := false, slotProt := false, fault := .none,
            causes := .empty, wait := 0, idle := 0, debounce := 0 })
      ∧ t.map.mapState = .missing ∧ t.map.labelState = .absent ∧ t.map.activeMap = .zero ∧ t.map.heldLabel = none
      ∧ t.map.stagedMap = .zero ∧ t.map.stagedLabel = .zero ∧ t.map.commit = none
      ∧ t.arb.st = .free ∧ t.arb.request = ⟨none, none⟩ ∧ t.arb.awaited = none ∧ t.arb.stamp = none ∧ t.arb.held = 0
      ∧ t.arb.clock = 0 ∧ t.arb.releasePending = false ∧ t.arb.usage = ⟨0, 0⟩ ∧ t.arb.gLast = .a ∧ t.arb.queue = []
      ∧ t.pos.cyl = none ∧ t.pos.lastSel = none ∧ t.pos.st = .halted ∧ t.pos.request = none ∧ t.pos.held = none
      ∧ t.pos.retry = false ∧ t.pos.last = none
      ∧ t.drive.present = true ∧ t.drive.offered = none ∧ t.drive.readGate = false ∧ t.drive.writeGate = false
      ∧ t.drive.protF = false ∧ t.drive.protR = false ∧ t.drive.waiting = [] ∧ t.drive.writeClock = false
      ∧ (∀ c, portLevels t c = .inactive ∧ (t.port c).ack = false ∧ (t.port c).returnBus = 0#16
          ∧ (t.port c).pulse = none ∧ (t.port c).readData = [])
      ∧ t.inputLines = lines
      ∧ t.relay.headPending = none ∧ t.relay.gate = none ∧ t.relay.torn = []
      ∧ t.ilock.list = [] ∧ t.ilock.chain = ⟨none, none⟩ ∧ t.ilock.deferred = ⟨none, none⟩
      ∧ (∀ k : Fin 24, posted t k = false) ∧ t.mbox.notice = ⟨[], []⟩ ∧ t.mbox.expected = ⟨none, none⟩
      ∧ t.watch.st = (if lines.warning then .supplyHold else if lines.drive.ready then .spinningUp else .spunDown)
      ∧ t.watch.readyAccepted = false ∧ t.watch.warnAccepted = lines.warning ∧ t.watch.sector = 0
      ∧ t.watch.sync = false ∧ t.watch.mapOwed = true ∧ t.watch.labelOwed = true ∧ t.watch.priorValid = false
      ∧ t.watch.writeEndWait = false ∧ t.watch.spinOwed = lines.warning
      ∧ t.watch.readyDebounce = 0 ∧ t.watch.clearDebounce = 0 ∧ t.watch.gap = 0
      ∧ (∀ f, (t.ev.record f).isSome = decide (f = .sole .supplyWarning)) ∧ Recorded (.sole .supplyWarning) 8 t
      ∧ (t.ev.record (.sole .supplyWarning)).map (·.stamp) = some 0#32
      ∧ (∀ f, t.ev.recordEnable.get f = true)
      ∧ (∀ f, t.ev.alarmEnable.get f = decide (f ∈
          [SoleEvent.tornListOverflow, .positionerFault, .recalibrationFailed, .driveFaultLine, .rotationFault,
            .rotationLost, .mapInvalid, .mapCommitFailed].map Flag.sole))
      ∧ t.ev.contact = false
      ∧ t.line.frame = [] ∧ t.line.frameError = false ∧ t.line.reply = none
      ∧ t.line.page = 0 ∧ t.line.latch = none ∧ t.line.restartCount = 0#16 ∧ t.uptime = 0#32

/-- The laws of the part hold right after reset. -/
def Obligations.LawsHoldAtReset : Prop :=
  ContactLaw State.reset ∧ UsageLaw State.reset ∧ TornLaw State.reset ∧ InterlockLaw State.reset
    ∧ MailboxLaw State.reset ∧ NoticeLaw State.reset ∧ QueueLaw State.reset ∧ PageLaw State.reset
    ∧ CountLaw State.reset ∧ Ownership State.reset

/-! ## Laws that every step keeps -/

/-- The alarm contact is closed exactly when some event flag is set whose alarm enable is set: kept by every step. -/
def Obligations.StepKeepsAlarmContact : Prop :=
  ∀ s t : State,
    (s.ev.contact = true ↔ ∃ f : Flag, (s.ev.record f).isSome = true ∧ s.ev.alarmEnable.get f = true) →
    step s = .next t →
    (t.ev.contact = true ↔ ∃ f : Flag, (t.ev.record f).isSome = true ∧ t.ev.alarmEnable.get f = true)

/-- Kept by every step: neither usage count exceeds 32767 between charges; the internal request queue holds at most 2
entries, no kind twice; the page selector is 0..12; the counts stay in their ranges. -/
def Obligations.StepKeepsRanges : Prop :=
  ∀ s t : State, step s = .next t →
    (UsageLaw s → UsageLaw t) ∧ (QueueLaw s → QueueLaw t) ∧ (PageLaw s → PageLaw t) ∧ (CountLaw s → CountLaw t)

/-- The torn sector list holds at most 4 entries and no address twice. -/
def Obligations.StepKeepsTornList : Prop := ∀ s t : State, TornLaw s → step s = .next t → TornLaw t

/-- No cylinder in two interlock entries, no holder with more than 4, a chain stamp exactly beside an entry. -/
def Obligations.StepKeepsInterlockList : Prop := ∀ s t : State, InterlockLaw s → step s = .next t → InterlockLaw t

/-- A slot is POSTED exactly when it stands in one notice list, and MAILBOX NOTICE is present exactly beside a
non-empty list. -/
def Obligations.StepKeepsMailbox : Prop :=
  ∀ s t : State, MailboxLaw s → NoticeLaw s → step s = .next t → MailboxLaw t ∧ NoticeLaw t

/-- Who has the actuator: at most one view is POSITIONED or TRANSFERRING, and it is the owner's; the views are never
both DEFERRED; a request record stands exactly beside a REQUESTING view. Kept by every step but the end of a supply
hold that still waits for a write's end, a time the write's own end bounds (log 30). -/
def Obligations.StepKeepsOwnership : Prop :=
  ∀ s t : State,
    (s.watch.st = .supplyHold → s.watch.writeEndWait = true → s.pending.head? ≠ some .supplyClearAccepted) →
    Ownership s → step s = .next t → Ownership t

/-! ## Orders at a channel port -/

/-- ORDER SELECT and ORDER BUS name the order. An unknown function code and an order that names no kind are acknowledged
and change nothing but the idle count; every order is withheld without effect in DETACHED, and is no arrival while ORDER
ACKNOWLEDGE is high; the fall of ORDER STROBE drops ORDER ACKNOWLEDGE and RETURN BUS alone. That an order with the strobe
still high and the acknowledgement low arrives, and that the acknowledgement rises in the order's own step, is log
10. -/
def Obligations.OrderHandshake : Prop :=
  ∀ (c : Chan) (value bus code : BitVec 10) (w : Carried) (s : State),
    (TakesOrders s c →
        exec (.unknownFunctionCode c code) s = .next (orderDone c (s.view c) s)
          ∧ exec (.orderNamingNoKind c bus) s = .next (orderDone c (s.view c) s))
      ∧ ((s.view c).st = .detached ∨ (s.port c).ack = true →
          ∀ i ∈ [Instr.cylinderOrder c value w, .headOrder c bus w, .recalibrate c, .faultClear c, .report c,
              .unknownFunctionCode c code, .orderNamingNoKind c bus],
            exec i s = .next (setPort c { s.port c with strobe := true } s))
      ∧ exec (.orderStrobeFall c) s =
          .next (setPort c { s.port c with strobe := false, ack := false, returnBus := 0#16 } s)
      ∧ orderOnLines c 0#2 bus w = .cylinderOrder c bus w ∧ orderOnLines c 1#2 bus w = .headOrder c bus w
      ∧ orderOnLines c 2#2 1#10 w = .faultClear c ∧ orderOnLines c 2#2 2#10 w = .recalibrate c
      ∧ orderOnLines c 2#2 3#10 w = .report c
      ∧ (code ≠ 1#10 → code ≠ 2#10 → code ≠ 3#10 → orderOnLines c 2#2 code w = .unknownFunctionCode c code)
      ∧ orderOnLines c 3#2 bus w = .orderNamingNoKind c bus

/-- A mapped CYLINDER order, or a RECALIBRATE as logical cylinder 0, in STANDBY, REQUESTING or DEFERRED: the wait from 0
out of STANDBY, running on otherwise. Blocked by no interlock, while the arbiter is INTERNAL, HALTED, has a claim, or is
owned by a peer that goes on: the view requests and its record is made or replaced; a claim of its own whose seek is held
has the held seek replaced (log 15). At a peer that owns the actuator, idle for its release interval, the first waiter ends
the grant at its arrival. Blocked: the view is DEFERRED with its deferred request held, a request of its own withdrawn, and with it a claim whose
seek is held ends, a continuing one charged, the arbiter FREE where nobody else waits.
Blocked out of STANDBY or REQUESTING with the peer itself DEFERRED: the channel yields, its entries go with E21, and the peer is released. -/
def Obligations.CylinderOrderMakesRequest : Prop :=
  ∀ (c : Chan) (value : BitVec 10) (w : Carried) (s : State) (t : Target),
    TakesOrders s c → (s.view c).st ∈ [ViewState.standby, .requesting, .deferred] →
    Maps s c (s.view c).sel.vol value.toNat t →
    let place : Place := ⟨(s.view c).sel.vol, t.physical⟩
    let v := { s.view c with
      target := some t, seekError := false, wait := if (s.view c).st = ViewState.standby then 0 else (s.view c).wait }
    let requests := orderDone c { v with st := .requesting }
      { s with
        arb := { s.arb with request := s.arb.request.set c (some place) },
        ilock := { s.ilock with deferred := s.ilock.deferred.set c none } }
    let defers := orderDone c { v with st := .deferred }
      { s with
        arb := if (s.view c).st = .requesting then withoutRequest s c else s.arb,
        ilock := { s.ilock with deferred := s.ilock.deferred.set c (some place) } }
    (heldBy s (peer c) place = false →
        KeepsWaiting s c ∨ ((∃ k, s.arb.st = .claimed c k) ∧ s.pos.held = none) →
        exec (.cylinderOrder c value w) s = .next requests ∧ (value = 0#10 → exec (.recalibrate c) s = .next requests))
      ∧ (∀ n, heldBy s (peer c) place = false → (∃ k, s.arb.st = .claimed c k) → s.pos.held = some n →
          let u := { requests with
            arb := { requests.arb with awaited := some t.physical }, pos := { s.pos with held := some t.physical } }
          exec (.cylinderOrder c value w) s = .next u ∧ (value = 0#10 → exec (.recalibrate c) s = .next u))
      ∧ (heldBy s (peer c) place = false → EndsGrantAtArrival s c →
          ∃ u, exec (.cylinderOrder c value w) s = .next u ∧ (value = 0#10 → exec (.recalibrate c) s = .next u)
            ∧ u.view c = { v with st := (u.view c).st, idle := 0 }
            ∧ (u.view c).st ∈ [ViewState.requesting, .positioned] ∧ (u.port c).ack = true
            ∧ GrantPassed (peer c) place s u
            ∧ TouchesOnly [.view .a, .view .b, .port c, .arb, .pos, .drive, .relay, .ilock] s u)
      ∧ (heldBy s (peer c) place = true → (s.view (peer c)).st ≠ .deferred →
          ¬((∃ k, s.arb.st = .claimed c k) ∧ s.pos.held ≠ none) →
          exec (.cylinderOrder c value w) s = .next defers ∧ (value = 0#10 → exec (.recalibrate c) s = .next defers))
      ∧ (∀ k n, heldBy s (peer c) place = true → (s.view (peer c)).st ≠ .deferred → (s.view c).st = .requesting →
          s.arb.st = .claimed c k → s.pos.held = some n → ¬Waits s c →
          ∃ u, exec (.cylinderOrder c value w) s = .next u ∧ (value = 0#10 → exec (.recalibrate c) s = .next u)
            ∧ u.view c = { v with st := .deferred, idle := 0 } ∧ (u.port c).ack = true
            ∧ u.ilock = { s.ilock with deferred := s.ilock.deferred.set c (some place) }
            ∧ u.pos = { s.pos with held := none }
            ∧ u.arb = { s.arb with
                st := .free, request := s.arb.request.set c none, awaited := none, stamp := none, clock := 0,
                releasePending := false,
                usage := if k = .continuing then chargedUsage s.arb.usage c s.arb.held else s.arb.usage }
            ∧ TouchesOnly [.view c, .port c, .arb, .pos, .drive, .relay, .ilock] s u)
      ∧ (heldBy s (peer c) place = true → (s.view (peer c)).st = .deferred → blocked s (peer c) = true →
          ((s.view c).st = .requesting ∨ (s.view c).st = .standby ∧ s.arb.request.get c = none) →
          ∃ u, exec (.cylinderOrder c value w) s = .next u ∧ (value = 0#10 → exec (.recalibrate c) s = .next u)
            ∧ (u.view c).st = .deferred
            ∧ (u.view (peer c)).st ≠ .deferred ∧ entriesOf u c = [] ∧ u.ilock.deferred.get c = some place
            ∧ u.arb.request.get c = none
            ∧ TouchesOnly (.port c :: Part.reached) s u
            ∧ OnlyRaises [.chan c .interlockYield, .chan (peer c) .waitLimitGrant] s u
            ∧ (Open (.chan c .interlockYield) s →
                Recorded (.chan c .interlockYield) (entriesOf s c).length u))

/-- A CYLINDER order, or a RECALIBRATE as logical cylinder 0, mapped in the same three states, at a FREE arbiter with nobody
else waiting: with the actuator on the cylinder the channel owns it at once and its view is POSITIONED; elsewhere, known
and untroubled, the seek begins and the view is REQUESTING. -/
def Obligations.CylinderOrderAtFreeArbiter : Prop :=
  ∀ (c : Chan) (value : BitVec 10) (w : Carried) (s : State) (t : Target),
    TakesOrders s c → (s.view c).st ∈ [ViewState.standby, .requesting, .deferred] →
    Maps s c (s.view c).sel.vol value.toNat t →
    heldBy s (peer c) ⟨(s.view c).sel.vol, t.physical⟩ = false →
    s.arb.st = .free → s.arb.queue = [] → s.arb.request.get (peer c) = none →
    ∃ u, exec (.cylinderOrder c value w) s = .next u ∧ (value = 0#10 → exec (.recalibrate c) s = .next u)
      ∧ (u.view c).target = some t ∧ (u.view c).seekError = false
      ∧ (u.port c).ack = true ∧ u.arb.stamp = some s.uptime ∧ u.arb.held = 0 ∧ u.arb.gLast = c ∧ u.arb.clock = 0
      ∧ u.arb.budget = (paramsOf s.map.activeMap c).t ∧ u.arb.usage = s.arb.usage
      ∧ TouchesOnly [.view c, .port c, .arb, .pos, .drive, .relay, .ilock] s u
      ∧ (s.pos.cyl = some t.physical →
          (u.view c).st = .positioned ∧ u.arb.st = .owned c ∧ u.arb.request.get c = none)
      ∧ (s.pos.cyl ≠ some t.physical →
          (u.view c).st = .requesting ∧ u.arb.st = .claimed c .fresh ∧ u.arb.awaited = some t.physical)
      ∧ ((∃ n, s.pos.cyl = some n ∧ n ≠ t.physical) → s.pos.st = .idle → driveTroubled s = false →
          u.pos.st = .seeking ∧ OrderAsked (.cylinder t.physical) u)

/-- A CYLINDER order or RECALIBRATE that does not translate: unmapped in STANDBY, SEEK ERROR, no target and E1; in NOT
READY the same with no event. Nothing else changes. A lookup searches the channel's extents in effect, four of the active
map and four of the held label as their words spell them, for an in-use one on the volume that holds the logical
cylinder. -/
def Obligations.OrderThatFailsToTranslate : Prop :=
  ∀ (c : Chan) (value : BitVec 10) (w : Carried) (s : State), TakesOrders s c →
    let fails := orderDone c { s.view c with target := none, slotProt := false, seekError := true } s
    ((s.view c).st = .standby → usableVol s (s.view c).sel.vol = true →
        407 < value.toNat ∨ lookup (s.map.extents c) (s.view c).sel.vol value.toNat = none →
        ∃ u, exec (.cylinderOrder c value w) s = .next u ∧ (value = 0#10 → exec (.recalibrate c) s = .next u)
          ∧ u = { fails with ev := u.ev } ∧ OnlyRaises [.chan c .unmappedSeek] s u
          ∧ (Open (.chan c .unmappedSeek) s →
              Recorded (.chan c .unmappedSeek) (volBit (s.view c).sel.vol * 2 ^ 15 + value.toNat) u))
      ∧ ((s.view c).st = .notReady →
          exec (.cylinderOrder c value w) s = .next fails ∧ exec (.recalibrate c) s = .next fails)
      ∧ (∀ v : Vol, lookup (s.map.extents c) v value.toNat = none ↔
          ∀ e ∈ s.map.extents c, ¬(e.inUse = true ∧ e.vol = v ∧ e.ls ≤ value.toNat ∧ value.toNat < e.ls + e.n))
      ∧ (∀ v e, lookup (s.map.extents c) v value.toNat = some e →
          e ∈ s.map.extents c ∧ e.inUse = true ∧ e.vol = v ∧ e.ls ≤ value.toNat ∧ value.toNat < e.ls + e.n)
      ∧ (s.map.extents c =
          (if s.map.mapState = .valid then
              (List.range 4).map fun j => extentAt s.map.activeMap (sectionStart .f c + 4 * j)
            else [])
            ++ if s.map.labelState = .valid then
              s.map.heldLabel.toList.flatMap fun l =>
                (List.range 4).map fun j => extentAt l (sectionStart .r c + 4 * j)
            else [])
      ∧ (∀ k, SpeltAt s.map.activeMap k (extentAt s.map.activeMap k))

/-- A CYLINDER order of the owner, or a RECALIBRATE as logical cylinder 0. One that translates to the cylinder its view
stands on leaves it POSITIONED and the grant unbroken; a re-seek while nobody else waits continues the grant as a claim:
stamp, held time, budget and clock kept. A re-seek while another requester waits ends the grant: charged, the new request
kept, its wait from 0, and a decision that has the channel among the eligible. -/
def Obligations.OrderOfTheOwner : Prop :=
  ∀ (c : Chan) (value : BitVec 10) (w : Carried) (s : State) (t : Target),
    TakesOrders s c → (s.view c).st = .positioned → Maps s c (s.view c).sel.vol value.toNat t →
    ((s.view c).target.map (·.physical) = some t.physical →
        let u := orderDone c { s.view c with target := some t, seekError := false } s
        exec (.cylinderOrder c value w) s = .next u ∧ (value = 0#10 → exec (.recalibrate c) s = .next u))
      ∧ ((s.view c).target.map (·.physical) ≠ some t.physical →
          heldBy s (peer c) ⟨(s.view c).sel.vol, t.physical⟩ = false →
          s.arb.st = .owned c → s.arb.queue = [] → s.arb.request.get (peer c) = none →
          ∃ u, exec (.cylinderOrder c value w) s = .next u ∧ (value = 0#10 → exec (.recalibrate c) s = .next u)
            ∧ u.view c =
                { s.view c with st := .requesting, target := some t, seekError := false, wait := 0, idle := 0 }
            ∧ u.arb = { s.arb with
                st := .claimed c .continuing, awaited := some t.physical,
                request := s.arb.request.set c (some ⟨(s.view c).sel.vol, t.physical⟩) }
            ∧ (u.port c).ack = true ∧ TouchesOnly [.view c, .port c, .arb, .pos, .drive, .ilock] s u)
      ∧ ((s.view c).target.map (·.physical) ≠ some t.physical →
          heldBy s (peer c) ⟨(s.view c).sel.vol, t.physical⟩ = false → s.arb.st = .owned c → Waits s c →
          ∃ u, exec (.cylinderOrder c value w) s = .next u ∧ (value = 0#10 → exec (.recalibrate c) s = .next u)
            ∧ u.view c =
                { s.view c with st := (u.view c).st, target := some t, seekError := false, wait := 0, idle := 0 }
            ∧ (u.port c).ack = true ∧ ReseekDecided c ⟨(s.view c).sel.vol, t.physical⟩ s u
            ∧ TouchesOnly (.port c :: Part.reached) s u)

/-- A HEAD order that leaves the volume, or finds no target, in NOT READY, STANDBY, REQUESTING and DEFERRED: the
selection, and with it the slot protection mark at head 1; nothing else. In POSITIONED, where the drive's selection is
another, it is sent on and gates are held. Under a held target a change of volume translates the logical cylinder again:
unusable or unmapped, SEEK ERROR, no target and STANDBY (in NOT READY the state stays), with E1 for an unmapped one;
mapped to the same physical cylinder, the state stays, and a kept request takes the new volume (log 14); mapped to
another, a request is made or deferred, its wait from 0 out of STANDBY and running on otherwise, or the owner re-seeks:
the grant goes on as a claim while nobody else waits, and ends, charged, where another does. A request that finds the peer
owning the actuator and idle for its release interval, nobody waiting, ends that grant. -/
def Obligations.HeadOrderTakesSelection : Prop :=
  ∀ (c : Chan) (bus : BitVec 10) (w : Carried) (s : State), TakesOrders s c →
    let v := { s.view c with
      sel := headSel bus,
      slotProt := (s.view c).slotProt && decide ((headSel bus).vol = (s.view c).sel.vol)
        && decide ((headSel bus).head = .h0) }
    let failed := { v with target := none, slotProt := false, seekError := true }
    ((headSel bus).vol = (s.view c).sel.vol ∨ (s.view c).target = none →
      ((s.view c).st ∈ [ViewState.notReady, .standby, .requesting, .deferred] →
          exec (.headOrder c bus w) s = .next (orderDone c v s))
        ∧ ((s.view c).st = .positioned → s.relay.headPending = none →
            ∃ u, exec (.headOrder c bus w) s = .next u ∧ u.view c = { v with idle := 0 } ∧ (u.port c).ack = true
              ∧ TouchesOnly [.view c, .port c, .relay, .drive] s u
              ∧ (s.pos.lastSel = some (headSel bus) → u.relay = s.relay ∧ u.drive = s.drive)
              ∧ (s.pos.lastSel ≠ some (headSel bus) →
                  u.relay = { s.relay with headPending := some (headSel bus) }
                    ∧ OrderAsked (.head (headSel bus) (.relay c)) u)))
      ∧ (∀ t, (s.view c).target = some t → (headSel bus).vol ≠ (s.view c).sel.vol →
        ((s.view c).st = .notReady → usableVol s (headSel bus).vol = false →
            exec (.headOrder c bus w) s = .next (orderDone c failed s))
          ∧ ((s.view c).st ∈ [ViewState.standby, .requesting, .deferred, .positioned] →
              ((s.view c).st ≠ .requesting → s.arb.request.get c = none) →
              ¬(s.arb.st = .owned c ∧ s.arb.releasePending = true) →
              usableVol s (headSel bus).vol = false ∨ Unmapped s c (headSel bus).vol t.logical →
              ∃ u, exec (.headOrder c bus w) s = .next u ∧ u.view c = { failed with st := .standby, idle := 0 }
                ∧ (u.port c).ack = true ∧ u.arb.request.get c = none
                ∧ ((s.view c).st = .deferred → u.ilock.deferred.get c = none)
                ∧ ((s.view c).st = .standby → TouchesOnly [.view c, .port c, .ev] s u)
                ∧ TouchesOnly (.port c :: Part.reached) s u ∧ OnlyRaises [.chan c .unmappedSeek] s u
                ∧ (usableVol s (headSel bus).vol = false → u.ev = s.ev)
                ∧ (usableVol s (headSel bus).vol = true → Open (.chan c .unmappedSeek) s →
                    Recorded (.chan c .unmappedSeek) (volBit (headSel bus).vol * 2 ^ 15 + t.logical) u))
          ∧ (∀ t', Maps s c (headSel bus).vol t.logical t' → t'.physical = t.physical →
              ((s.view c).st ∈ [ViewState.standby, .deferred] →
                  exec (.headOrder c bus w) s = .next (orderDone c { v with target := some t' } s))
                ∧ ((s.view c).st = .requesting →
                    exec (.headOrder c bus w) s =
                      .next (orderDone c { v with target := some t' }
                        { s with arb := { s.arb with
                            request := s.arb.request.set c (some ⟨(headSel bus).vol, t.physical⟩) } }))
                ∧ ((s.view c).st = .positioned →
                    ∃ u, exec (.headOrder c bus w) s = .next u
                      ∧ u.view c = { v with target := some t', idle := 0 }
                      ∧ TouchesOnly [.view c, .port c, .relay, .drive] s u
                      ∧ (s.relay.headPending = none → s.pos.lastSel ≠ some (headSel bus) →
                          u.relay.headPending = some (headSel bus)
                            ∧ OrderAsked (.head (headSel bus) (.relay c)) u)))
          ∧ (∀ t', Maps s c (headSel bus).vol t.logical t' → t'.physical ≠ t.physical →
              let place : Place := ⟨(headSel bus).vol, t'.physical⟩
              let wait := if (s.view c).st = ViewState.standby then 0 else (s.view c).wait
              ((s.view c).st ∈ [ViewState.standby, .requesting, .deferred] → KeepsWaiting s c →
                  heldBy s (peer c) place = false →
                  exec (.headOrder c bus w) s =
                    .next (orderDone c { v with st := .requesting, target := some t', wait := wait }
                      { s with
                        arb := { s.arb with request := s.arb.request.set c (some place) },
                        ilock := { s.ilock with deferred := s.ilock.deferred.set c none } }))
                ∧ ((s.view c).st ∈ [ViewState.standby, .requesting, .deferred] → KeepsWaiting s c →
                    heldBy s (peer c) place = true → (s.view (peer c)).st ≠ .deferred →
                    exec (.headOrder c bus w) s =
                      .next (orderDone c { v with st := .deferred, target := some t', wait := wait }
                        { s with
                          arb := if (s.view c).st = .requesting then withoutRequest s c else s.arb,
                          ilock := { s.ilock with deferred := s.ilock.deferred.set c (some place) } }))
                ∧ ((s.view c).st ∈ [ViewState.standby, .deferred] → heldBy s (peer c) place = false →
                    EndsGrantAtArrival s c →
                    ∃ u, exec (.headOrder c bus w) s = .next u
                      ∧ u.view c = { v with st := (u.view c).st, target := some t', wait := wait, idle := 0 }
                      ∧ GrantPassed (peer c) place s u
                      ∧ TouchesOnly [.view .a, .view .b, .port c, .arb, .pos, .drive, .relay, .ilock] s u)
                ∧ ((s.view c).st = .positioned → heldBy s (peer c) place = false → s.arb.st = .owned c →
                    s.arb.queue = [] → s.arb.request.get (peer c) = none →
                    ∃ u, exec (.headOrder c bus w) s = .next u
                      ∧ u.view c = { v with st := .requesting, target := some t', wait := 0, idle := 0 }
                      ∧ u.arb = { s.arb with
                          st := .claimed c .continuing, awaited := some t'.physical,
                          request := s.arb.request.set c (some place) }
                      ∧ TouchesOnly [.view c, .port c, .arb, .pos, .drive, .ilock] s u)
                ∧ ((s.view c).st = .positioned → heldBy s (peer c) place = false → s.arb.st = .owned c →
                    Waits s c →
                    ∃ u, exec (.headOrder c bus w) s = .next u
                      ∧ u.view c = { v with st := (u.view c).st, target := some t', wait := 0, idle := 0 }
                      ∧ ReseekDecided c place s u ∧ TouchesOnly (.port c :: Part.reached) s u)))

/-- In FAULTED a CYLINDER order, a HEAD order and a RECALIBRATE are acknowledged with no effect. A FAULT CLEAR there
gives STANDBY with the target kept, or NOT READY and the channel's interlocks gone where the drive is unusable; in every
other state it clears SEEK ERROR alone. -/
def Obligations.FaultedUntilFaultClear : Prop :=
  ∀ (c : Chan) (value bus : BitVec 10) (w : Carried) (s : State), TakesOrders s c →
    ((s.view c).st = .faulted →
        ∀ i ∈ [Instr.cylinderOrder c value w, .headOrder c bus w, .recalibrate c],
          exec i s = .next (orderDone c (s.view c) s))
      ∧ ((s.view c).st = .faulted → usable s = true →
          exec (.faultClear c) s =
            .next (orderDone c { s.view c with st := .standby, fault := .none, seekError := false } s))
      ∧ ((s.view c).st = .faulted → usable s = false → s.arb.request.get c = none →
          ∃ u, exec (.faultClear c) s = .next u
            ∧ u.view c = { s.view c with st := .notReady, fault := .none, seekError := false, idle := 0 }
            ∧ (u.port c).ack = true ∧ entriesOf u c = [] ∧ TouchesOnly (.port c :: Part.reached) s u)
      ∧ ((s.view c).st ≠ .faulted →
          exec (.faultClear c) s = .next (orderDone c { s.view c with seekError := false } s))

/-- REPORT places the word of causes, oldest slot and fault cause as they stood, and removes every cause but MAILBOX
NOTICE; nothing else changes. In the word: one bit for each cause, the oldest slot or 31, the fault cause. -/
def Obligations.ReportAnswersAndClearsCauses : Prop :=
  ∀ (c : Chan) (s : State), TakesOrders s c →
    let r := reportWord (s.view c).causes (s.mbox.notice.get c) (s.view c).fault
    exec (.report c) s =
        .next (setPort c { s.port c with strobe := true, ack := true, returnBus := r }
          (setView c
            { s.view c with
              idle := 0,
              causes := ⟨(s.view c).causes.mailboxNotice, false, false, false, false, false, false, false⟩ } s))
      ∧ r.getLsbD 15 = (s.view c).causes.mailboxNotice ∧ r.getLsbD 14 = (s.view c).causes.cartridgeChanged
      ∧ r.getLsbD 13 = (s.view c).causes.peerDetached ∧ r.getLsbD 12 = (s.view c).causes.peerAttached
      ∧ r.getLsbD 11 = (s.view c).causes.mapChanged ∧ r.getLsbD 10 = (s.view c).causes.peerTornWrite
      ∧ r.getLsbD 9 = (s.view c).causes.preempted ∧ r.getLsbD 8 = (s.view c).causes.attached
      ∧ (r.extractLsb' 3 5).toNat = (match s.mbox.notice.get c with | [] => 31 | x :: _ => x.val)
      ∧ (r.extractLsb' 0 3).toNat = (s.view c).fault.code

/-- A passed gate cut by a CYLINDER or HEAD order of its channel, which is withheld, or still up at the next sector
start: the view FAULTED with the cause, its target and selection kept, E5 or E4, the gate down; a write not yet full is
torn, with SHORT WRITE or GATE OVERRUN. -/
def Obligations.GateCutFaultsView : Prop :=
  ∀ (c : Chan) (value bus : BitVec 10) (k : StartKind) (w : Carried) (s : State) (g : GateRecord),
    PlainGate s c g → s.arb.request.get c = none →
    (TakesOrders s c →
        ∀ i ∈ [Instr.cylinderOrder c value w, .headOrder c bus w],
          ∃ u, exec i s = .next u ∧ (u.view c).st = .faulted ∧ (u.view c).fault = .orderDuringGate
            ∧ (u.view c).target = (s.view c).target ∧ (u.view c).sel = (s.view c).sel ∧ (u.port c).ack = false
            ∧ GateJudged .shortWrite g w s u ∧ u.drive.readGate = false ∧ u.drive.writeGate = false
            ∧ TouchesOnly (.port c :: .mbox :: Part.reached) s u
            ∧ (Open (.chan c .orderDuringGate) s →
                Recorded (.chan c .orderDuringGate) (if i = .headOrder c bus w then 1 else 0) u))
      ∧ (s.map.xfer = .none →
          ∃ u, exec (.sectorStart k w) s = .next u ∧ (u.view c).st = .faulted ∧ (u.view c).fault = .gateOverrun
            ∧ (u.view c).target = (s.view c).target ∧ (u.view c).sel = (s.view c).sel
            ∧ GateJudged .gateOverrun g w s u ∧ u.drive.writeGate = false
            ∧ TouchesOnly (.port .a :: .port .b :: .watch :: .mbox :: Part.reached) s u
            ∧ (Open (.chan c .gateOverrun) s →
                Recorded (.chan c .gateOverrun) (g.kind.code * 2 ^ 14 + wordsPassed w) u))

/-! ## Gates -/

/-- A gate that arrives at a POSITIONED view and is neither held nor suppressed is passed: its record, its line at the
drive port, the view TRANSFERRING. Held, in a supply hold, with the owner's head selection pending, or with a HEAD
order of the relay's for this view unacknowledged: the lines and the idle count alone. The header window ends before 120
microseconds (log 5). -/
def Obligations.GateAtPositionedView : Prop :=
  ∀ (c : Chan) (line : GateLine) (us : Nat) (s : State) (t : Target),
    (s.port c).readGate = false → (s.port c).writeGate = false → (s.view c).st = .positioned →
    (s.view c).target = some t →
    let p := { s.port c with
      readGate := decide (line = .read), writeGate := decide (line = .write), gate := some line }
    (s.watch.st ≠ .supplyHold → s.relay.headPending = none → ¬HeadAwaited s c →
        (line = .write →
          t.cls ≠ .readOnly ∧ s.drive.prot (s.view c).sel.vol = false
            ∧ ¬(t.cls = .mailbox ∧ (s.view c).sel.head = .h1)
            ∧ ¬(t.cls = .mailbox ∧ (s.view c).sel.head = .h0 ∧ posted s s.watch.sector = true)
            ∧ ¬(us < 120 ∧ (t.cls = .readWrite ∨ t.cls = .shared) ∧ t.permit = false)) →
        exec (.gateArrival c line us) s =
          .next (setPort c p
            (setView c { s.view c with st := .transferring, idle := 0 }
              { s with
                relay := { s.relay with
                  gate := some
                    { chan := c,
                      kind := if line = .read then .read else if us < 120 then .formatWrite else .dataWrite,
                      inWindow := decide (us < 120),
                      addr := ⟨(s.view c).sel.vol, t.physical, (s.view c).sel.head, s.watch.sector⟩,
                      cls := t.cls, dataStarted := false, words := 0, checkWord := false, firstWord := none,
                      checkError := false } },
                drive := { s.drive with
                  readGate := decide (line = .read), writeGate := decide (line = .write) } })))
      ∧ (s.watch.st = .supplyHold ∨ s.relay.headPending.isSome = true ∨ HeadAwaited s c →
          exec (.gateArrival c line us) s = .next (setPort c p (setView c { s.view c with idle := 0 } s)))

/-- A write that a check bars is not passed: the drive port sees no gate, the view is FAULTED with the cause, and E2 or
E3 carries the number of the first check that held. The header window, and with it the kind of write and check 5, ends
before 120 microseconds (log 5). -/
def Obligations.WriteSuppressed : Prop :=
  ∀ (c : Chan) (us : Nat) (s : State) (t : Target) (n : Nat),
    (s.port c).readGate = false → (s.port c).writeGate = false → (s.view c).st = .positioned →
    (s.view c).target = some t → s.watch.st ≠ .supplyHold → s.relay.headPending = none → ¬HeadAwaited s c →
    s.arb.request.get c = none →
    (if t.cls = .readOnly then n = 1
      else if s.drive.prot (s.view c).sel.vol = true then n = 2
      else if t.cls = .mailbox ∧ (s.view c).sel.head = .h1 then n = 3
      else if t.cls = .mailbox ∧ posted s s.watch.sector = true then n = 4
      else n = 5 ∧ us < 120 ∧ (t.cls = .readWrite ∨ t.cls = .shared) ∧ t.permit = false) →
    ∃ u, exec (.gateArrival c .write us) s = .next u ∧ (u.view c).st = .faulted
      ∧ (u.view c).fault = (if n = 5 then .formatRefused else .protectedWrite)
      ∧ (u.view c).target = some t ∧ (u.view c).sel = (s.view c).sel
      ∧ u.relay.gate = s.relay.gate ∧ u.relay.torn = s.relay.torn ∧ u.drive.readGate = s.drive.readGate
      ∧ u.drive.writeGate = s.drive.writeGate ∧ TouchesOnly (.port c :: Part.reached) s u
      ∧ (let f := if n = 5 then Flag.chan c .formatRefused else Flag.chan c .protectedWrite
         Open f s → Recorded f ((if us < 120 then 2 else 1) * 2 ^ 14 + n) u)

/-- A gate in REQUESTING, DEFERRED, or STANDBY with no target is not passed and raises E6; the request is unchanged. In
STANDBY with a target it is not passed either, raises E6, and is taken as a request for that target: let through with the
wait from 0, or deferred by an interlock of the peer; even where that gives the grant at once, no gate is passed. In NOT
READY and FAULTED the gate sets the idle count to 0, in DETACHED not even that, and no event is raised. A rise while the
other line, or the same, is up is no arrival: it changes the line alone. -/
def Obligations.GateWithoutPosition : Prop :=
  ∀ (c : Chan) (line : GateLine) (us : Nat) (s : State),
    let low := (s.port c).readGate = false ∧ (s.port c).writeGate = false
    let p := { s.port c with
      readGate := decide (line = .read), writeGate := decide (line = .write), gate := some line }
    let detail := (s.view c).st.code * 2 ^ 13 + if line = .read then 0 else 1
    (¬low →
        exec (.gateArrival c line us) s =
          .next (setPort c
            { s.port c with
              readGate := (s.port c).readGate || decide (line = .read),
              writeGate := (s.port c).writeGate || decide (line = .write) } s))
      ∧ (low → (s.view c).st = .detached → exec (.gateArrival c line us) s = .next (setPort c p s))
      ∧ (low → (s.view c).st = .notReady ∨ (s.view c).st = .faulted →
          exec (.gateArrival c line us) s = .next (setPort c p (setView c { s.view c with idle := 0 } s)))
      ∧ (low → (s.view c).st = .requesting ∨ (s.view c).st = .deferred
          ∨ ((s.view c).st = .standby ∧ (s.view c).target = none) →
        ∃ u, exec (.gateArrival c line us) s = .next u
          ∧ u = { setPort c p (setView c { s.view c with idle := 0 } s) with ev := u.ev }
          ∧ OnlyRaises [.chan c .gateWithoutPosition] s u
          ∧ (Open (.chan c .gateWithoutPosition) s → Recorded (.chan c .gateWithoutPosition) detail u))
      ∧ (∀ t, low → (s.view c).st = .standby → (s.view c).target = some t →
        let place : Place := ⟨(s.view c).sel.vol, t.physical⟩
        ∃ u, exec (.gateArrival c line us) s = .next u
          ∧ u.port c = p ∧ u.relay.gate = s.relay.gate ∧ u.drive.readGate = s.drive.readGate
          ∧ u.drive.writeGate = s.drive.writeGate ∧ (u.view c).target = some t
          ∧ (u.view c).st ∈ [ViewState.requesting, .deferred, .positioned]
          ∧ (u.view c).wait = 0
          ∧ TouchesOnly (.port c :: Part.reached) s u
          ∧ (Open (.chan c .gateWithoutPosition) s → Recorded (.chan c .gateWithoutPosition) detail u)
          ∧ (heldBy s (peer c) place = false → KeepsWaiting s c →
              u = { setPort c p (setView c { s.view c with st := .requesting, wait := 0, idle := 0 }
                  { s with
                    arb := { s.arb with request := s.arb.request.set c (some place) },
                    ilock := { s.ilock with deferred := s.ilock.deferred.set c none } }) with ev := u.ev })
          ∧ (heldBy s (peer c) place = false → EndsGrantAtArrival s c → GrantPassed (peer c) place s u)
          ∧ (heldBy s (peer c) place = true → (s.view (peer c)).st ≠ .deferred →
              u = { setPort c p (setView c { s.view c with st := .deferred, wait := 0, idle := 0 }
                  { s with ilock := { s.ilock with deferred := s.ilock.deferred.set c (some place) } }) with
                ev := u.ev }))

/-- The drop of a passed read that reports nothing to the Mailbox Unit: the gate down at both ports, the view
POSITIONED, the words relayed. In a read raised inside the header window the first header word relayed is the view's
logical cylinder, the second and third as read; in any other the data alone. The end of a gate that is not active, and the
drop of a line that began none: the lines and the idle count. -/
def Obligations.DropThatReportsNothing : Prop :=
  ∀ (c : Chan) (line : GateLine) (w : Carried) (s : State),
    (∀ g, PlainGate s c g → g.kind = .read → (s.port c).gate = some line → s.drive.waiting = [] →
        g.cls ≠ .mailbox ∨ g.addr.head = .h1 ∨ reachedCheckWord w = false ∨ g.checkError = true →
        exec (.gateDrop c w) s =
          .next (setPort c
            { (s.port c).setLine line false with
              gate := none,
              readData := readDataRelayed g ((((s.view c).target).map (·.logical)).getD 0) w }
            (setView c { s.view c with st := .positioned, idle := 0 }
              { s with
                relay := { s.relay with gate := none },
                drive := { s.drive with readGate := false, writeGate := false } })))
      ∧ (s.relay.gate.map (·.chan) ≠ some c → (s.port c).gate = some line → (s.view c).st ≠ .detached →
          exec (.unpassedGateDrop c line) s =
            .next (setPort c { (s.port c).setLine line false with gate := none }
              (setView c { s.view c with idle := 0 } s)))
      ∧ ((s.port c).gate ≠ some line →
          exec (.unpassedGateDrop c line) s = .next (setPort c ((s.port c).setLine line false) s))
      ∧ (∀ (g : GateRecord) (logical : Nat),
          (∀ h rest, g.inWindow = true → w.header = h :: rest →
              readDataRelayed g logical w = BitVec.ofNat 16 logical :: (rest.take 2 ++ w.data.take 256))
            ∧ (g.inWindow = false ∨ w.header = [] → readDataRelayed g logical w = w.data.take 256))

/-- A passed write dropped before its check word is torn: the newest entry of the torn list, the oldest removed where
the list was full. A full one in READ-WRITE space takes its address off the list and reports to nobody else. The view
is POSITIONED; no interlock, no message, no change of the grant. Of a format write the first header word sent to the drive
is the gate's physical cylinder, the second and third as supplied; of a data write the data alone. -/
def Obligations.WriteJudgedAtItsDrop : Prop :=
  ∀ (c : Chan) (w : Carried) (s : State) (g : GateRecord), PlainGate s c g → g.kind ≠ .read → TornLaw s →
    let kept := s.relay.torn.filter fun e => decide (e.addr ≠ g.addr)
    (reachedCheckWord w = false →
        ∃ u, exec (.gateDrop c w) s = .next u
          ∧ u.relay = { s.relay with
              gate := none,
              torn := (if kept.length < 4 then kept else kept.tail)
                ++ [⟨g.addr, .chan c, .shortWrite, s.uptime⟩] }
          ∧ (u.view c).st = .positioned ∧ (u.view c).idle = 0 ∧ u.drive.readGate = false ∧ u.drive.writeGate = false
          ∧ u.drive.writeData = writeDataSent g w
          ∧ TouchesOnly [.view c, .view (peer c), .port c, .drive, .relay, .ev] s u
          ∧ OnlyRaises [.chan c .tornSector, .sole .tornListOverflow] s u
          ∧ ((s.view (peer c)).st ≠ .detached → spanHas (s.map.extents (peer c)) g.addr.vol g.addr.cyl
                (fun k => decide (k = .shared ∨ k = .mailbox)) = true →
              (u.view (peer c)).causes.peerTornWrite = true)
          ∧ (Open (.chan c .tornSector) s → Recorded (.chan c .tornSector) (wordsPassed w) u))
      ∧ (reachedCheckWord w = true → g.cls = .readWrite →
          ∃ u, exec (.gateDrop c w) s = .next u ∧ u.relay = { s.relay with gate := none, torn := kept }
            ∧ u.view c = { s.view c with st := .positioned, idle := 0 } ∧ u.drive.readGate = false
            ∧ u.drive.writeGate = false ∧ u.drive.writeData = writeDataSent g w
            ∧ TouchesOnly [.view c, .port c, .drive, .relay] s u)
      ∧ (∀ h rest, g.kind = .formatWrite → w.header = h :: rest →
          writeDataSent g w = BitVec.ofNat 16 g.addr.cyl :: (rest.take 2 ++ w.data.take 256))
      ∧ (g.kind ≠ .formatWrite ∨ w.header = [] → writeDataSent g w = w.data.take 256)

/-- A full SHARED write by channel X: it extends X's entry, or changes no list where the peer holds the cylinder, or
makes a new entry, over X's oldest with E23 where X has 4; X's chain stamp becomes the uptime wherever X holds an
entry. A new entry defers a peer that is REQUESTING on its place, whose request record goes; a peer REQUESTING another
place is not deferred. -/
def Obligations.FullSharedWriteMakesInterlock : Prop :=
  ∀ (c : Chan) (w : Carried) (s : State) (g : GateRecord),
    PlainGate s c g → g.kind ≠ .read → reachedCheckWord w = true → g.cls = .shared →
    s.arb.request.get c = none →
    let fresh : Entry := ⟨c, g.addr.vol, g.addr.cyl, s.uptime, s.uptime, 1⟩
    let held := heldBy s c ⟨g.addr.vol, g.addr.cyl⟩
    let peerHeld := heldBy s (peer c) ⟨g.addr.vol, g.addr.cyl⟩
    ∃ u, exec (.gateDrop c w) s = .next u ∧ (u.view c).st = .positioned
      ∧ u.relay.gate = none ∧ u.relay.torn = s.relay.torn.filter (fun e => decide (e.addr ≠ g.addr))
      ∧ TouchesOnly (.port c :: Part.reached) s u
      ∧ (held = true →
          u.ilock.list = s.ilock.list.map (fun e =>
              if e.holder = c ∧ e.vol = g.addr.vol ∧ e.cyl = g.addr.cyl then
                { e with last := s.uptime, sectors := countUp 65535 e.sectors }
              else e)
            ∧ u.ilock.chain.get c = some s.uptime)
      ∧ (held = false → peerHeld = true →
          u.ilock.list = s.ilock.list
            ∧ (entriesOf s c = [] → u.ilock.chain = s.ilock.chain)
            ∧ (entriesOf s c ≠ [] → u.ilock.chain.get c = some s.uptime))
      ∧ (held = false → peerHeld = false → (entriesOf s c).length < 4 →
          u.ilock.list = s.ilock.list ++ [fresh] ∧ u.ilock.chain.get c = some s.uptime
            ∧ ((s.view (peer c)).st = .requesting → (s.view (peer c)).place ≠ some fresh.place →
                u.view (peer c) = s.view (peer c)
                  ∧ u.arb.request.get (peer c) = s.arb.request.get (peer c)))
      ∧ (held = false → peerHeld = false →
          (s.view (peer c)).st = .requesting → (s.view (peer c)).place = some fresh.place →
          u.view (peer c) = { s.view (peer c) with st := .deferred } ∧ u.arb.request.get (peer c) = none
            ∧ u.ilock.deferred.get (peer c) = some fresh.place)
      ∧ (∀ old rest, held = false → peerHeld = false → entriesOf s c = old :: rest → rest.length = 3 →
          u.ilock.list =
              s.ilock.list.filter (fun e => !decide (e.holder = c ∧ e.vol = old.vol ∧ e.cyl = old.cyl)) ++ [fresh]
            ∧ u.ilock.chain.get c = some s.uptime
            ∧ (Open (.chan c .interlockOverflow) s →
                Recorded (.chan c .interlockOverflow) old.sectors u))

/-- A full write on head 0 of the mailbox cylinder with destination PEER posts its slot, with E26 where the sequence has
a gap; with KEEP or an unrouted code the slot stays FREE. -/
def Obligations.FullMailboxWritePosts : Prop :=
  ∀ (c : Chan) (w : Carried) (s : State) (g : GateRecord) (routing : Word),
    PlainGate s c g → g.kind ≠ .read → reachedCheckWord w = true → g.cls = .mailbox → g.addr.head = .h0 →
    w.data.head? = some routing → posted s g.addr.sector = false →
    let q := routing.extractLsb' 0 8
    ∃ u, exec (.gateDrop c w) s = .next u ∧ (u.view c).st = .positioned ∧ u.relay.gate = none
      ∧ TouchesOnly [.view c, .view (peer c), .port c, .drive, .relay, .mbox, .ev] s u
      ∧ OnlyRaises [.chan c .mailboxSequenceGap, .chan c .mailboxUnrouted] s u
      ∧ (routing.extractLsb' 8 8 = 0x01#8 →
          u.mbox.slots[g.addr.sector] =
              some ⟨c, q, (match s.mbox.expected.get c with | some e => decide (q ≠ e) | none => false), s.uptime⟩
            ∧ u.mbox.notice.get (peer c) = s.mbox.notice.get (peer c) ++ [g.addr.sector]
            ∧ u.mbox.notice.get c = s.mbox.notice.get c ∧ u.mbox.expected.get c = some (q + 1#8)
            ∧ (u.view (peer c)).causes.mailboxNotice = true
            ∧ (∀ e, s.mbox.expected.get c = some e → q ≠ e → Open (.chan c .mailboxSequenceGap) s →
                Recorded (.chan c .mailboxSequenceGap) (q.toNat * 2 ^ 8 + e.toNat) u))
      ∧ (routing.extractLsb' 8 8 ≠ 0x01#8 → u.mbox = s.mbox)
      ∧ (routing.extractLsb' 8 8 ≠ 0x00#8 → routing.extractLsb' 8 8 ≠ 0x01#8 →
          Open (.chan c .mailboxUnrouted) s → Recorded (.chan c .mailboxUnrouted) routing.toNat u)

/-- A full read without CHECK ERROR of a slot posted to the reader consumes it; MAILBOX NOTICE goes with the last. -/
def Obligations.FullMailboxReadConsumes : Prop :=
  ∀ (c : Chan) (w : Carried) (s : State) (g : GateRecord),
    PlainGate s c g → g.kind = .read → reachedCheckWord w = true → g.checkError = false → g.cls = .mailbox →
    g.addr.head = .h0 → posted s g.addr.sector = true → (s.mbox.notice.get c).contains g.addr.sector = true →
    ∃ u, exec (.gateDrop c w) s = .next u ∧ (u.view c).st = .positioned ∧ posted u g.addr.sector = false
      ∧ (∀ k : Fin 24, k ≠ g.addr.sector → posted u k = posted s k)
      ∧ u.mbox.notice.get c = (s.mbox.notice.get c).erase g.addr.sector
      ∧ u.mbox.notice.get (peer c) = s.mbox.notice.get (peer c) ∧ u.mbox.expected = s.mbox.expected
      ∧ (u.view c).causes.mailboxNotice = !((s.mbox.notice.get c).erase g.addr.sector).isEmpty
      ∧ TouchesOnly [.view c, .port c, .drive, .relay, .mbox] s u

/-- A passed write cut in its course. Its clock stopped in the data field: torn with PRESENCE LOST, its view POSITIONED.
Still up at its check word in a supply hold: it is full, and the hold is then completed, the internal queue kept. -/
def Obligations.WriteCutInItsCourse : Prop :=
  ∀ (c : Chan) (w : Carried) (s : State) (g : GateRecord), g.kind ≠ .read →
    (PlainGate s c g → dataFieldStarted w = true → reachedCheckWord w = false →
        ∃ u, exec (.writeClockLost w) s = .next u
          ∧ ⟨g.addr, .chan c, .presenceLost, s.uptime⟩ ∈ u.relay.torn
          ∧ (u.view c).st = .positioned ∧ u.relay.gate = none ∧ u.drive.writeGate = false
          ∧ TouchesOnly [.view c, .view (peer c), .drive, .relay, .ev] s u
          ∧ OnlyRaises [.chan c .tornSector, .sole .tornListOverflow] s u)
      ∧ (s.relay.gate = some g → g.chan = c → reachedCheckWord w = true → s.watch.st = .supplyHold →
          s.watch.writeEndWait = true →
          ∃ u, exec (.supplyWriteCutAtCheckWord w) s = .next u
            ∧ u.relay.torn = s.relay.torn.filter (fun e => decide (e.addr ≠ g.addr))
            ∧ u.relay.gate = none ∧ u.drive.writeGate = false ∧ u.watch = { s.watch with writeEndWait := false }
            ∧ u.arb.queue = s.arb.queue ∧ u.map = { s.map with xfer := .none } ∧ u.line = s.line ∧ Down s u)

/-- CHECK ERROR belongs to the read gate up at the drive port: a channel's, to whose port alone it is relayed, or an
internal one; with no read gate up it does nothing. -/
def Obligations.CheckErrorBelongsToRead : Prop :=
  ∀ s : State,
    (∀ g, s.relay.gate = some g → g.kind = .read →
        exec .checkError s =
          .next (setPort g.chan { s.port g.chan with pulse := some .checkError }
            { s with relay := { s.relay with gate := some { g with checkError := true } } }))
      ∧ (∀ v e, s.relay.gate = none → s.map.xfer = .reading v e →
          exec .checkError s = .next { s with map := { s.map with xfer := .reading v true } })
      ∧ ((∀ g, s.relay.gate = some g → g.kind ≠ .read) → (s.relay.gate = none → ∀ v e, s.map.xfer ≠ .reading v e) →
          exec .checkError s = .next s)

/-! ## Presence -/

/-- A loss of PRESENT at a view that is not DETACHED: DETACHED, its lines inactive, its interlocks gone, the peer told.
A passed gate of the channel is cut, a write not yet full torn with PRESENCE LOST. The owner gives up its grant, charged,
and by the budget where its end was marked. -/
def Obligations.PresenceLostDetaches : Prop :=
  ∀ (c : Chan) (w : Carried) (s : State),
    (s.view c).st ≠ .detached → ((s.view c).st ≠ .requesting → s.arb.request.get c = none) →
    ∃ u, exec (.presenceLost c w) s = .next u ∧ (u.view c).st = .detached ∧ (u.view c).target = none
      ∧ (u.view c).sel = (s.view c).sel ∧ (u.view c).seekError = (s.view c).seekError
      ∧ (u.view c).fault = (s.view c).fault ∧ (u.view c).debounce = 0
      ∧ (u.port c).present = false ∧ (u.port c).ack = false ∧ (u.port c).returnBus = 0#16
      ∧ (u.port c).readData = [] ∧ (u.port c).pulse = none
      ∧ entriesOf u c = [] ∧ u.ilock.chain.get c = none ∧ u.arb.request.get c = none
      ∧ TouchesOnly (.port c :: .mbox :: .watch :: Part.reached) s u
      ∧ ((s.view (peer c)).st ≠ .detached → (u.view (peer c)).causes.peerDetached = true)
      ∧ (Open (.chan c .presenceLost) s → Recorded (.chan c .presenceLost) (s.view c).st.code u)
      ∧ (∀ g, s.relay.gate = some g → g.chan = c →
          GateJudged .presenceLost g w s u ∧ u.drive.readGate = false ∧ u.drive.writeGate = false)
      ∧ (s.arb.st = .owned c → (s.view c).st = .positioned ∨ (s.view c).st = .transferring →
          (s.view (peer c)).st ≠ .deferred → (∀ g, s.relay.gate = some g → ¬FullShared g w) →
          u.arb.usage = chargedUsage s.arb.usage c s.arb.held
            ∧ (s.arb.releasePending = true → Open (.chan c .budgetPreemption) s →
                Recorded (.chan c .budgetPreemption) s.arb.held u))

/-- PRESENT at a DETACHED view: a fall sets its debounce to 0, a rise changes the line alone, and at a debounce of 50 the
attach gives the view its first values, tells the peer, and unsets the sender's expectation; nothing else changes. -/
def Obligations.PresentLineAndAttach : Prop :=
  ∀ (c : Chan) (w : Carried) (s : State),
    ((s.view c).st = .detached →
        exec (.presenceLost c w) s =
          .next (setPort c { s.port c with present := false } (setView c { s.view c with debounce := 0 } s)))
      ∧ exec (.presentRise c) s = .next (setPort c { s.port c with present := true } s)
      ∧ ((s.view c).st = .detached → (s.port c).present = true → (s.view c).debounce = 50 →
          ∃ u, exec (.attach c) s = .next u
            ∧ u.view c =
                { st := if s.watch.st = .running ∧ s.map.mapState = .valid then .standby else .notReady,
                  sel := ⟨.f, .h0⟩, target := none, seekError := false, slotProt := false, fault := .none,
                  causes := { Causes.empty with
                    attached := true, mailboxNotice := !(s.mbox.notice.get c).isEmpty },
                  wait := 0, idle := 0, debounce := 50 }
            ∧ u.view (peer c) =
                (if (s.view (peer c)).st = .detached then s.view (peer c)
                 else { s.view (peer c) with causes := { (s.view (peer c)).causes with peerAttached := true } })
            ∧ u.mbox = { s.mbox with expected := s.mbox.expected.set c none }
            ∧ TouchesOnly [.view .a, .view .b, .mbox] s u)

/-! ## Rotation -/

/-- A sector start with no gate up, no transfer in hand and no supply hold: the rotation monitor's count, mark and gap,
E14 for a count out of step; the start relayed to the views of the six relaying states, their slot protection marks
judged for the sector now beginning; other views see nothing. -/
def Obligations.SectorStartCountsAndIsRelayed : Prop :=
  ∀ (k : StartKind) (w : Carried) (s : State), s.relay.gate = none → s.map.xfer = .none → s.watch.st ≠ .supplyHold →
    ∃ u, exec (.sectorStart k w) s = .next u
      ∧ u.watch = { s.watch with sector := u.watch.sector, sync := u.watch.sync, gap := 0 }
      ∧ (k ≠ .sector → u.watch.sector = 0 ∧ u.watch.sync = true)
      ∧ (k = .sector → u.watch.sync = s.watch.sync)
      ∧ (k = .sector → s.watch.sync = true → u.watch.sector.val = min 23 (s.watch.sector.val + 1))
      ∧ (k = .sector → s.watch.sync = false → u.watch.sector = 0)
      ∧ (Open (.sole .rotationFault) s → s.watch.sync = true →
          (k ≠ .sector → s.watch.sector ≠ 23 → Recorded (.sole .rotationFault) s.watch.sector.val u)
            ∧ (k = .sector → s.watch.sector = 23 → Recorded (.sole .rotationFault) (2 ^ 15 + 23) u))
      ∧ (∀ c, (s.view c).st = .detached ∨ (s.view c).st = .notReady →
          u.view c = s.view c ∧ u.port c = s.port c)
      ∧ (∀ c, (s.view c).st ≠ .detached → (s.view c).st ≠ .notReady →
          u.port c = { s.port c with pulse := some (.start k) }
            ∧ u.view c = { s.view c with
                slotProt := (s.view c).targetIs .mailbox && decide ((s.view c).sel.head = .h0)
                  && posted s u.watch.sector })
      ∧ TouchesOnly [.view .a, .view .b, .port .a, .port .b, .watch, .ev] s u
      ∧ OnlyRaises [.sole .rotationFault] s u

/-- An accepted fall of READY in a state with an accepted drive, and a lost rotation where it is judged, are a
spin-down: the label gone and its read owed, the arbiter and Positioner Control halted, the queue emptied, the views in
NOT READY, uncharged. A passed gate is cut, a write not yet full torn with DRIVE DROPPED. -/
def Obligations.SpinDownTakesDriveDown : Prop :=
  ∀ (w : Carried) (s : State) (i : Instr),
    (i = .readyFall w ∧ s.watch.readyAccepted = true
        ∧ (s.watch.st ∈ [WatchState.calibrating, .readingMap, .readingLabel, .running]
          ∨ (s.watch.st = .driveFault ∧ s.watch.warnAccepted = false)))
      ∨ (i = .rotationLost w ∧ s.watch.gap = 5
        ∧ s.watch.st ∈ [WatchState.readingMap, .readingLabel, .running]) →
    ∃ u, exec i s = .next u ∧ u.watch.st = .spunDown ∧ u.watch.readyAccepted = false ∧ u.watch.readyDebounce = 0
      ∧ u.watch.labelOwed = true ∧ u.watch.mapOwed = s.watch.mapOwed ∧ u.watch.sync = false
      ∧ u.map.labelState = .absent ∧ u.map.mapState = s.map.mapState ∧ u.map.activeMap = s.map.activeMap
      ∧ u.drive.protR = false ∧ u.drive.protF = s.drive.protF
      ∧ u.watch.priorValid =
          (match s.map.labelState with | .valid => true | .unlabelled => false | .absent => s.watch.priorValid)
      ∧ u.arb.queue = [] ∧ ((∀ g, s.relay.gate = some g → ¬FullShared g w) → u.arb.usage = s.arb.usage)
      ∧ (∀ g, s.relay.gate = some g → s.map.xfer = .none →
          GateJudged .driveDropped g w s u ∧ u.drive.readGate = false ∧ u.drive.writeGate = false)
      ∧ (∀ e ∈ u.ilock.list, e.vol = .f) ∧ Down s u
      ∧ TouchesOnly (.port .a :: .port .b :: .mbox :: .watch :: Part.reached) s u
      ∧ (i = .rotationLost w → Open (.sole .rotationLost) s →
          Recorded (.sole .rotationLost) s.watch.sector.val u)

/-! ## Internal transfers -/

/-- At the awaited start of sector 0 the Map Store raises its read gate, or opens the window before its write gate,
which rises at INTERNAL_WRITE_GATE_RISE. -/
def Obligations.InternalGateRises : Prop :=
  ∀ (v : Vol) (s : State),
    (s.map.xfer = .window v →
        exec .internalWriteGateRise s =
          .next { s with
            map := { s.map with xfer := .writing v }, drive := { s.drive with writeGate := true } })
      ∧ (∀ (k : StartKind) (w : Carried), k ≠ .sector → s.map.xfer = .awaitSector v → s.relay.gate = none →
          s.watch.st ≠ .supplyHold →
          ∃ u, exec (.sectorStart k w) s = .next u
            ∧ (s.arb.queue.head? = some .mapWrite →
                u.map = { s.map with xfer := .window v } ∧ u.drive = s.drive)
            ∧ (s.arb.queue.head? ≠ some .mapWrite →
                u.map = { s.map with xfer := .reading v false } ∧ u.drive = { s.drive with readGate := true })
            ∧ u.arb = s.arb ∧ u.pos = s.pos)

/-- The end of the start-up's map read: a full, valid image of the right header becomes the active map; any other
leaves the map MISSING, with E18 and the lowest reason. Drive Watch goes on to READING LABEL, whose request is
granted. The reason is the lowest of V1 to V8 that holds of the image. -/
def Obligations.MapReadOutcome : Prop :=
  ∀ (full e : Bool) (h : HeaderWords) (data : Image) (s : State),
    s.map.xfer = .reading .f e → s.watch.st = .readingMap → s.arb.st = .internal → s.arb.queue = [.mapRead] →
    ∃ u, exec (.internalReadEnd full h data) s = .next u ∧ u.drive.readGate = false
      ∧ u.watch = { s.watch with st := .readingLabel, mapOwed := false, gap := 0 }
      ∧ u.arb.st = .internal ∧ u.arb.queue = [.labelRead] ∧ u.arb.usage = s.arb.usage ∧ u.arb.gLast = s.arb.gLast
      ∧ u.map.labelState = s.map.labelState ∧ u.map.stagedMap = s.map.stagedMap
      ∧ TouchesOnly [.map, .arb, .pos, .drive, .watch, .ev] s u
      ∧ (full = true → e = false → h.w1 = 0x0000#16 → h.w2 = 0x0000#16 → validateMap data = none →
          u.map.mapState = .valid ∧ u.map.activeMap = data ∧ u.ev = s.ev)
      ∧ (∀ n, full = true → e = false → h.w1 = 0x0000#16 → h.w2 = 0x0000#16 → validateMap data = some n →
          u.map.mapState = .missing ∧ u.map.activeMap = .zero
            ∧ (Open (.sole .mapInvalid) s → Recorded (.sole .mapInvalid) n u))
      ∧ (full = false ∨ e = true ∨ h.w1 ≠ 0x0000#16 ∨ h.w2 ≠ 0x0000#16 →
          u.map.mapState = .missing ∧ u.map.activeMap = .zero
            ∧ (Open (.sole .mapInvalid) s → Recorded (.sole .mapInvalid) 0 u))
      ∧ ∀ n, validateMap data = some n ↔ LowestReason (some data) none n

/-- The end of the label read: a full, valid label of the right header is held and in effect; any other leaves the part
UNLABELLED with the held image kept and E17. Drive Watch goes on to RUNNING, and with a VALID map the views leave NOT
READY. The reason is the lowest of V1 to V8 that holds of the image. At every label read but the first after power-on or
restart (log 13) the cartridge is compared: changed, E16 with the new serial number, or 0, and CARTRIDGE CHANGED for every
view that is not DETACHED; not changed, no cause and no E16. -/
def Obligations.LabelReadOutcome : Prop :=
  ∀ (full e : Bool) (h : HeaderWords) (data : Image) (s : State),
    s.map.xfer = .reading .r e → s.watch.st = .readingLabel → s.arb.st = .internal → s.arb.queue = [.labelRead] →
    s.arb.request = ⟨none, none⟩ →
    ∃ u, exec (.internalReadEnd full h data) s = .next u ∧ u.drive.readGate = false
      ∧ u.watch.st = .running ∧ u.watch.labelOwed = false ∧ u.arb.st = .free ∧ u.arb.queue = []
      ∧ u.map.mapState = s.map.mapState ∧ u.map.activeMap = s.map.activeMap
      ∧ TouchesOnly [.view .a, .view .b, .map, .arb, .drive, .watch, .ev] s u
      ∧ (s.map.mapState = .valid → ∀ c, (s.view c).st = .notReady → (u.view c).st = .standby)
      ∧ (full = true → e = false → h.w1 = 0x0000#16 → h.w2 = 0x8000#16 → validateLabel data = none →
          u.map.labelState = .valid ∧ u.map.heldLabel = some data)
      ∧ (∀ n, full = true → e = false → h.w1 = 0x0000#16 → h.w2 = 0x8000#16 → validateLabel data = some n →
          u.map.labelState = .unlabelled ∧ u.map.heldLabel = s.map.heldLabel
            ∧ (Open (.sole .labelInvalid) s → Recorded (.sole .labelInvalid) n u))
      ∧ (full = false ∨ e = true ∨ h.w1 ≠ 0x0000#16 ∨ h.w2 ≠ 0x8000#16 →
          u.map.labelState = .unlabelled ∧ u.map.heldLabel = s.map.heldLabel
            ∧ (Open (.sole .labelInvalid) s → Recorded (.sole .labelInvalid) 0 u))
      ∧ (∀ n, validateLabel data = some n ↔ LowestReason none (some data) n)
      ∧ OnlyRaises [.sole .labelInvalid, .sole .cartridgeChanged] s u
      ∧ let good := full = true ∧ e = false ∧ h.w1 = 0x0000#16 ∧ h.w2 = 0x8000#16 ∧ validateLabel data = none
        let same := s.watch.priorValid = true ∧ ∃ old, s.map.heldLabel = some old
          ∧ (data.toList.drop 1).take 33 = (old.toList.drop 1).take 33
        let changed := s.watch.labelReadDone = true ∧ ((good ∧ ¬same) ∨ (¬good ∧ s.watch.priorValid = true))
        (changed →
            (∀ c, (s.view c).st ≠ .detached →
                (u.view c).causes = { (s.view c).causes with cartridgeChanged := true })
              ∧ (good → Open (.sole .cartridgeChanged) s → Recorded (.sole .cartridgeChanged) (imageWord data 1) u)
              ∧ (¬good → Open (.sole .cartridgeChanged) s → Recorded (.sole .cartridgeChanged) 0 u))
          ∧ (¬changed → (∀ c, (u.view c).causes = (s.view c).causes)
              ∧ u.ev.record (.sole .cartridgeChanged) = s.ev.record (.sole .cartridgeChanged))

/-- The end of the last full write of a commit: the images written become active and the staged ones copies of them,
both views are given MAP CHANGED, E19 carries the revision, the commit is no longer in flight, and the arbiter goes on
to its next decision. In RUNNING every view with a target has it translated again; the mailbox is kept on the same
cylinder and cleared otherwise; only interlocks that lie in a SHARED extent of their holder stay, and where no view
requests and no place stands twice in the list, every such one within C and M does. A map write with a label write to follow leaves the commit in flight. -/
def Obligations.CommitCompletes : Prop :=
  ∀ (v : Vol) (imgs : CommitImages) (s : State),
    s.map.xfer = .writing v → s.map.commit = some imgs → s.watch.st ≠ .supplyHold → s.arb.st = .internal →
    s.arb.queue = [.mapWrite] →
    ∃ u, exec .internalWriteEnd s = .next u ∧ u.drive.writeGate = false
      ∧ u.relay.torn = s.relay.torn.filter (fun e => decide (e.addr ≠ ⟨v, 0, .h0, 0⟩))
      ∧ u.drive.writeData = (if v = .f then imgs.map else imgs.label.getD .zero).toList
      ∧ TouchesOnly (.mbox :: Part.reached) s u
      ∧ (v = .r ∨ imgs.label = none →
          u.map.mapState = .valid ∧ u.map.activeMap = imgs.map ∧ u.map.stagedMap = imgs.map
            ∧ (∀ l, imgs.label = some l → u.map.heldLabel = some l ∧ u.map.stagedLabel = l)
            ∧ (imgs.label = none → u.map.heldLabel = s.map.heldLabel)
            ∧ u.map.commit = none ∧ u.map.xfer = .none ∧ u.arb.queue = [] ∧ u.arb.st ≠ .internal
            ∧ (∀ c, (s.view c).st ≠ .detached → (u.view c).causes.mapChanged = true)
            ∧ (Open (.sole .mapCommitted) s → Recorded (.sole .mapCommitted) (imageWord imgs.map 1) u)
            ∧ (s.watch.st = .running → ∀ c t, (s.view c).target = some t →
                (s.view c).st ∈ [ViewState.standby, .requesting, .deferred, .positioned, .faulted] →
                ((s.view c).st ≠ .requesting → s.arb.request.get c = none) →
                (u.view c).sel = (s.view c).sel
                  ∧ (∀ t', Maps u c (s.view c).sel.vol t.logical t' →
                      (u.view c).target = some t' ∧ (u.view c).seekError = (s.view c).seekError
                        ∧ (u.view c).wait = (s.view c).wait
                        ∧ ((s.view c).st ∈ [ViewState.standby, .faulted] → (u.view c).st = (s.view c).st)
                        ∧ ((s.view c).st ∈ [ViewState.requesting, .deferred] →
                            (u.view c).st ∈ [ViewState.requesting, .deferred, .positioned])
                        ∧ ((s.view c).st = .positioned →
                            (u.view c).st = if t'.physical = t.physical then .positioned else .standby))
                  ∧ (usableVol u (s.view c).sel.vol = false ∨ Unmapped u c (s.view c).sel.vol t.logical →
                      (u.view c).target = none ∧ (u.view c).seekError = true
                        ∧ (u.view c).st = (if (s.view c).st = .faulted then .faulted else .standby)
                        ∧ u.arb.request.get c = none ∧ ((s.view c).st = .deferred → u.ilock.deferred.get c = none)))
            ∧ (s.watch.st = .running → s.map.mapState = .missing → ∀ c, (s.view c).st = .notReady →
                s.arb.request.get c = none → (u.view c).st = .standby)
            ∧ (u.map.mailboxCylinder = s.map.mailboxCylinder → u.mbox = s.mbox)
            ∧ (u.map.mailboxCylinder ≠ s.map.mailboxCylinder →
                (∀ k : Fin 24, posted u k = false) ∧ u.mbox.notice = ⟨[], []⟩ ∧ u.mbox.expected = ⟨none, none⟩
                  ∧ ∀ c, (u.view c).causes.mailboxNotice = false)
            ∧ (∀ e ∈ u.ilock.list, e ∈ s.ilock.list
                ∧ spanHas (u.map.extents e.holder) e.vol e.cyl (fun k => decide (k = .shared)) = true)
            ∧ ((∀ c, (s.view c).st ≠ .requesting ∧ (s.view c).st ≠ .deferred) → InterlockLaw s → ∀ e ∈ s.ilock.list,
                spanHas (u.map.extents e.holder) e.vol e.cyl (fun k => decide (k = .shared)) = true →
                (s.uptime - e.first).toNat < imageWord imgs.map 11 →
                (∀ stamp, s.ilock.chain.get e.holder = some stamp →
                  (s.uptime - stamp).toNat < imageWord imgs.map 10) →
                e ∈ u.ilock.list))
      ∧ (v = .f → imgs.label.isSome = true →
          u.map.commit = some imgs ∧ u.map.activeMap = s.map.activeMap ∧ u.arb = s.arb ∧ u.views = s.views
            ∧ (u.map.xfer = .headOrder .r ∨ u.map.xfer = .awaitSector .r))

/-! ## Orders at the drive port -/

/-- What the acknowledgement of each order does; the strobe drops. That of a FAULT CLEAR or a RECALIBRATE keeps the physical
cylinder, known in a preparation from a known position (log 42). A HEAD order's acknowledgement clears the pending
selection where it carries it, its channel has the grant or the claim, and no later HEAD order of the channel waits; no
other HEAD order's does (log 39). No new order is offered until the acknowledgement has fallen;
then the oldest waiting order is, but a CYLINDER or HEAD order waits while a gate is up. On ORDER SELECT and ORDER BUS
stand the kind of the order offered and its value, the bits that R169 does not use zero. -/
def Obligations.DriveOrderHandshake : Prop :=
  ∀ s : State,
    (∀ n, s.drive.offered = some (.cylinder n) →
        exec .driveOrderAcknowledge s =
          .next { s with
            drive := { s.drive with ack := true, offered := none },
            pos := { s.pos with cyl := none, ticks := some 0 } })
      ∧ (s.drive.offered = some .recalibrate →
          exec .driveOrderAcknowledge s =
            .next { s with
              drive := { s.drive with ack := true, offered := none }, pos := { s.pos with ticks := some 0 } })
      ∧ (s.drive.offered = some .faultClear → driveTroubled s = true →
          exec .driveOrderAcknowledge s =
            .next { s with
              drive := { s.drive with ack := true, offered := none }, pos := { s.pos with ticks := some 0 } })
      ∧ (s.drive.offered = some .faultClear → driveTroubled s = false → s.pos.st = .clearing →
          ∃ u, exec .driveOrderAcknowledge s = .next u ∧ u.pos = { s.pos with st := .recalibrating, ticks := none }
            ∧ OrderAsked .recalibrate u ∧ TouchesOnly [.pos, .drive] s u)
      ∧ (∀ sel c, s.drive.offered = some (.head sel (.relay c)) →
          ∃ u, exec .driveOrderAcknowledge s = .next u ∧ u.pos = { s.pos with lastSel := some sel }
            ∧ u.drive.offered = none ∧ u.drive.ack = true ∧ u.drive.prot sel.vol = s.drive.writeProtected
            ∧ TouchesOnly [.pos, .drive, .relay] s u
            ∧ (let ends := s.relay.headPending = some sel ∧ (s.arb.st = .owned c ∨ ∃ k, s.arb.st = .claimed c k)
                ∧ ∀ sel', DriveOrder.head sel' (.relay c) ∉ s.drive.waiting
               (ends → u.relay = { s.relay with headPending := none }) ∧ (¬ends → u.relay = s.relay)))
      ∧ (∀ v, s.drive.offered = some (.head ⟨v, .h0⟩ .mapStore) → s.map.xfer = .headOrder v →
          ∃ u, exec .driveOrderAcknowledge s = .next u ∧ u.pos = { s.pos with lastSel := some ⟨v, .h0⟩ }
            ∧ u.map = { s.map with xfer := .awaitSector v } ∧ TouchesOnly [.pos, .drive, .map] s u)
      ∧ (s.drive.offered = none → s.drive.waiting = [] →
          exec .driveAcknowledgeFall s = .next { s with drive := { s.drive with ack := false } })
      ∧ (∀ o rest, s.drive.offered = none → s.drive.waiting = o :: rest →
          (s.drive.readGate = false → s.drive.writeGate = false →
            exec .driveAcknowledgeFall s =
              .next { s with
                drive := { s.drive with ack := false, offered := some o, strobeTicks := 0, waiting := rest } })
            ∧ ((∃ n, o = .cylinder n) ∨ (∃ sel i, o = .head sel i) →
                s.drive.readGate = true ∨ s.drive.writeGate = true →
                exec .driveAcknowledgeFall s = .next { s with drive := { s.drive with ack := false } }))
      ∧ (∀ n, n ≤ 407 → (DriveOrder.cylinder n).select = 0#2 ∧ (DriveOrder.cylinder n).bus.toNat = n)
      ∧ (∀ sel i, (DriveOrder.head sel i).select = 1#2
          ∧ (DriveOrder.head sel i).bus.getLsbD 0 = decide (sel.head = .h1)
          ∧ (DriveOrder.head sel i).bus.getLsbD 1 = decide (sel.vol = .r)
          ∧ (DriveOrder.head sel i).bus.extractLsb' 2 8 = 0#8)
      ∧ DriveOrder.faultClear.select = 2#2 ∧ DriveOrder.faultClear.bus = 1#10
      ∧ DriveOrder.recalibrate.select = 2#2 ∧ DriveOrder.recalibrate.bus = 2#10

/-- An order unacknowledged for 5 ticks is withdrawn: a CYLINDER order is a seek with no answer, the physical cylinder
UNKNOWN from the withdrawal (the model's choice, log 53), a FAULT CLEAR or RECALIBRATE a failed step that gives the drive
up. A HEAD order is in RUNNING a drive FAULT while running with no E13 and
no E10, whatever Positioner Control is doing: clearing, the record kept, the owner's grant ended and charged; a claim goes
on, its seek held for the recovery's end (log 16). In READING MAP and READING LABEL the drive is calibrated again, the
read still owed. -/
def Obligations.OrderWithdrawn : Prop :=
  ∀ (w : Carried) (s : State), s.drive.strobeTicks = 5 → s.watch.st ≠ .supplyHold →
    (∀ n, s.drive.offered = some (.cylinder n) → s.pos.st = .seeking → s.pos.request = some (.seek n) →
        s.pos.retry = false →
        ∃ u, exec (.orderWithdrawn w) s = .next u
          ∧ u.pos = { s.pos with
              cyl := none, st := .clearing, stage := .recovery, ticks := none, last := some ⟨.noAnswer, some n⟩ }
          ∧ OrderAsked .faultClear u ∧ TouchesOnly [.pos, .drive, .ev] s u
          ∧ OnlyRaises [.sole .seekTimeout] s u
          ∧ (Open (.sole .seekTimeout) s → Recorded (.sole .seekTimeout) 0 u))
      ∧ ((s.drive.offered = some .faultClear ∧ s.pos.st = .clearing)
            ∨ (s.drive.offered = some .recalibrate ∧ s.pos.st = .recalibrating) →
          ∃ u, exec (.orderWithdrawn w) s = .next u ∧ u.watch.st = .driveFault ∧ u.arb.queue = [] ∧ Down s u
            ∧ TouchesOnly (.port .a :: .port .b :: .mbox :: .watch :: Part.reached) s u
            ∧ (Open (.sole .recalibrationFailed) s →
                Recorded (.sole .recalibrationFailed)
                  (s.pos.stage.code * 2 ^ 8 + (if s.pos.st = .recalibrating then 16 else 0) + 3) u))
      ∧ (∀ sel issuer, s.drive.offered = some (.head sel issuer) → s.watch.st = .running →
          ∃ u, exec (.orderWithdrawn w) s = .next u
            ∧ u.pos.st = .clearing ∧ u.pos.stage = .recovery ∧ u.pos.cyl = none ∧ u.pos.lastSel = s.pos.lastSel
            ∧ u.pos.request = none ∧ u.pos.retry = false ∧ OrderAsked .faultClear u ∧ u.watch = s.watch
            ∧ TouchesOnly (.port .a :: .port .b :: .mbox :: Part.reached) s u
            ∧ u.ev.record (.sole .driveFaultLine) = s.ev.record (.sole .driveFaultLine)
            ∧ u.ev.record (.sole .seekError) = s.ev.record (.sole .seekError)
            ∧ (s.relay.gate = none → s.map.xfer = .none →
                (∀ x, s.arb.st = .owned x → (s.view x).st = .positioned → s.arb.request.get x = none →
                  (u.view x).st = .standby ∧ (u.view x).target = (s.view x).target
                    ∧ u.arb.usage = chargedUsage s.arb.usage x s.arb.held)
                  ∧ (∀ c k p, s.arb.st = .claimed c k → s.arb.request.get c = some p →
                    u.arb = { s.arb with awaited := some p.cyl } ∧ u.pos.held = some p.cyl
                      ∧ u.views = s.views)))
      ∧ (∀ v, s.drive.offered = some (.head ⟨v, .h0⟩ .mapStore) →
          s.watch.st = .readingMap ∨ s.watch.st = .readingLabel →
          ∃ u, exec (.orderWithdrawn w) s = .next u ∧ u.watch = { s.watch with st := .calibrating }
            ∧ u.arb.st = .halted ∧ u.arb.queue = [] ∧ u.map.xfer = .none ∧ u.pos.request = some .calibration
            ∧ u.pos.lastSel = none
            ∧ (if driveTroubled s then u.pos.st = .clearing ∧ OrderAsked .faultClear u
               else u.pos.st = .recalibrating ∧ OrderAsked .recalibrate u)
            ∧ TouchesOnly [.map, .arb, .pos, .drive, .relay, .watch, .ev] s u)

/-! ## The drive's answers -/

/-- ON CYLINDER after an acknowledged CYLINDER order, SEEK ERROR low: the seek is reached. A claim whose channel still
requests that cylinder becomes its grant; one whose target has changed continues with a seek to the new cylinder; one that
was withdrawn ends, charged where it was continuing. -/
def Obligations.SeekReachedGivesGrant : Prop :=
  ∀ (c : Chan) (k : ClaimKind) (n : Nat) (s : State),
    s.pos.st = .seeking → s.pos.ticks.isSome = true → s.pos.request = some (.seek n) → s.drive.seekError = false →
    s.arb.st = .claimed c k →
    ∃ u, exec .onCylinderRise s = .next u
      ∧ u.pos.cyl = some n ∧ u.pos.retry = false ∧ u.pos.last = some ⟨.reached, some n⟩ ∧ u.drive.onCylinder = true
      ∧ (∀ v, s.arb.request.get c = some ⟨v, n⟩ →
          u.pos = { s.pos with
              cyl := some n, st := .idle, retry := false, request := none, ticks := none,
              last := some ⟨.reached, some n⟩ }
            ∧ u.arb = { s.arb with st := .owned c, request := s.arb.request.set c none, awaited := none }
            ∧ u.view c = { s.view c with st := .positioned, idle := 0 }
            ∧ TouchesOnly [.view c, .arb, .pos, .drive, .relay] s u)
      ∧ (∀ p, s.arb.request.get c = some p → p.cyl ≠ n → s.drive.fault = false →
          u.arb = { s.arb with awaited := some p.cyl } ∧ u.pos.st = .seeking
            ∧ u.pos.request = some (.seek p.cyl) ∧ OrderAsked (.cylinder p.cyl) u
            ∧ TouchesOnly [.arb, .pos, .drive] s u)
      ∧ (s.arb.request.get c = none → s.arb.request.get (peer c) = none → s.arb.queue = [] →
          u.arb = { s.arb with
              st := .free, awaited := none, stamp := none, clock := 0, releasePending := false,
              usage := if k = .continuing then chargedUsage s.arb.usage c s.arb.held else s.arb.usage }
            ∧ u.pos.st = .idle ∧ u.pos.request = none ∧ TouchesOnly [.arb, .pos, .drive, .relay] s u)

/-- A clearing step that succeeds, FAULT and SEEK ERROR both low (log 9), is followed by a recalibration step, the physical
cylinder as it stood, known in a preparation from a known position (log 42). ON CYLINDER
after an acknowledged RECALIBRATE puts the actuator on cylinder 0. Made for Drive Watch: the last outcome CALIBRATED with
cylinder 0 (log 24), the arbiter resumed, and the next step owed. In a recovery the retry follows, the retry mark set; in a
preparation the attempt; either is reached at once where the cylinder is 0. Closing a failed retry: the failed claim, whose
view gets SEEK ERROR and loses its target, uncharged. With no request in hand: the held seek request begins, or IDLE. -/
def Obligations.StepsOfACalibration : Prop :=
  ∀ s : State, s.pos.ticks.isSome = true →
    (s.pos.st = .clearing →
        ∃ u, exec .clearingStepSucceeded s = .next u
          ∧ u.pos = { s.pos with st := .recalibrating, ticks := none }
          ∧ u.drive.fault = false ∧ u.drive.seekError = false ∧ OrderAsked .recalibrate u
          ∧ TouchesOnly [.pos, .drive] s u)
      ∧ (s.pos.st = .recalibrating → s.drive.seekError = false →
        (s.pos.request = some .calibration →
            s.watch.st = .calibrating → s.arb.st = .halted → s.arb.queue = [] → s.arb.request = ⟨none, none⟩ →
            ∃ u, exec .onCylinderRise s = .next u ∧ u.pos.st = .idle ∧ u.pos.cyl = some 0 ∧ u.pos.request = none
              ∧ u.pos.last = some ⟨.calibrated, some 0⟩
              ∧ TouchesOnly [.view .a, .view .b, .map, .arb, .pos, .drive, .watch] s u
              ∧ (s.watch.mapOwed = true →
                  u.watch.st = .readingMap ∧ u.arb.st = .internal ∧ u.arb.queue = [.mapRead])
              ∧ (s.watch.mapOwed = false → s.watch.labelOwed = true →
                  u.watch.st = .readingLabel ∧ u.arb.st = .internal ∧ u.arb.queue = [.labelRead])
              ∧ (s.watch.mapOwed = false → s.watch.labelOwed = false →
                  u.watch.st = .running ∧ u.arb.st = .free))
          ∧ (∀ n, s.pos.request = some (.seek n) → s.pos.stage = .recovery ∨ s.pos.stage = .preparation →
              ∃ u, exec .onCylinderRise s = .next u ∧ u.pos.cyl = some 0
                ∧ (n ≠ 0 →
                    u.pos = { s.pos with
                        cyl := some 0, st := .seeking, ticks := none,
                        retry := s.pos.retry || decide (s.pos.stage = .recovery) }
                      ∧ OrderAsked (.cylinder n) u ∧ TouchesOnly [.pos, .drive] s u)
                ∧ (∀ c k v, n = 0 → s.arb.st = .claimed c k → s.arb.request.get c = some ⟨v, 0⟩ →
                    u.pos.st = .idle ∧ u.pos.retry = false ∧ u.pos.request = none
                      ∧ u.pos.last = some ⟨.reached, some 0⟩ ∧ u.arb.st = .owned c
                      ∧ (u.view c).st = .positioned ∧ TouchesOnly [.view c, .arb, .pos, .drive, .relay] s u))
          ∧ (∀ n c k v, s.pos.request = some (.seek n) → s.pos.stage = .closing → s.arb.st = .claimed c k →
              s.arb.request.get c = some ⟨v, n⟩ → s.arb.request.get (peer c) = none → s.arb.queue = [] →
              ∃ u, exec .onCylinderRise s = .next u
                ∧ u.pos = { s.pos with
                    cyl := some 0, st := .idle, ticks := none, retry := false, request := none, held := none,
                    last := some ⟨.failedClaim, some n⟩ }
                ∧ u.view c =
                    { s.view c with st := .standby, target := none, slotProt := false, seekError := true }
                ∧ u.arb = { s.arb with
                    st := .free, request := ⟨none, none⟩, awaited := none, stamp := none, clock := 0,
                    releasePending := false }
                ∧ TouchesOnly [.view c, .arb, .pos, .drive, .relay] s u)
          ∧ (∀ n, s.pos.request = none → s.pos.held = some n → n ≠ 0 → s.drive.fault = false →
              ∃ u, exec .onCylinderRise s = .next u
                ∧ u.pos = { s.pos with
                    cyl := some 0, st := .seeking, ticks := none, request := some (.seek n), held := none,
                    retry := false }
                ∧ OrderAsked (.cylinder n) u ∧ TouchesOnly [.pos, .drive] s u)
          ∧ (s.pos.request = none → s.pos.held = none →
              exec .onCylinderRise s =
                .next { s with
                  drive := { s.drive with onCylinder := true },
                  pos := { s.pos with cyl := some 0, st := .idle, ticks := none } }))

/-- A failed first attempt begins recovery: SEEK ERROR, FAULT and no answer after 150 ticks. A failed retry begins the
closing steps, with E10 whatever its outcome. -/
def Obligations.FailedAttemptBeginsRecovery : Prop :=
  ∀ (w : Carried) (n : Nat) (s : State) (i : Instr) (o : SeekOutcome),
    s.pos.st = .seeking → s.pos.request = some (.seek n) →
    (i = .seekErrorRise w ∧ o = .seekError ∧ s.pos.ticks.isSome = true ∧ s.drive.onCylinder = false)
      ∨ (i = .driveFaultLine w ∧ o = .fault ∧ s.pos.ticks.isSome = true)
      ∨ (i = .seekNoAnswer ∧ o = .noAnswer ∧ s.pos.ticks = some 150) →
    ∃ u, exec i s = .next u
      ∧ u.pos = { s.pos with
          cyl := none, st := .clearing, stage := if s.pos.retry then .closing else .recovery, ticks := none,
          last := some ⟨o, some n⟩ }
      ∧ OrderAsked .faultClear u ∧ TouchesOnly [.pos, .drive, .ev] s u
      ∧ OnlyRaises [.sole .seekTimeout, .sole .seekError, .sole .driveFaultLine] s u
      ∧ (o = .noAnswer → Open (.sole .seekTimeout) s → Recorded (.sole .seekTimeout) s.pos.retry.toNat u)
      ∧ (o ≠ .noAnswer → u.ev.record (.sole .seekTimeout) = s.ev.record (.sole .seekTimeout))
      ∧ (o ≠ .noAnswer ∨ s.pos.retry = true → Open (.sole .seekError) s →
          Recorded (.sole .seekError) s.pos.retry.toNat u)
      ∧ (o = .noAnswer → s.pos.retry = false → u.ev.record (.sole .seekError) = s.ev.record (.sole .seekError))
      ∧ (o = .fault → s.watch.st = .running → Open (.sole .driveFaultLine) s →
          Recorded (.sole .driveFaultLine) 1 u)

/-- A failed step gives the drive up: the 50 ticks of a clearing, the 600 of a recalibration, SEEK ERROR or FAULT in a
recalibration, each with E12. So does a contradictory answer, ON CYLINDER and SEEK ERROR both high, whichever rose last,
with E11: to a first attempt, detail 0, to a retry 1, to a recalibration 2. -/
def Obligations.FailedStepGivesDriveUp : Prop :=
  ∀ (w : Carried) (s : State) (i : Instr) (f : SoleEvent) (detail : Nat),
    (i = .clearingTimeLimit ∧ s.pos.st = .clearing ∧ s.pos.ticks = some 50 ∧ f = .recalibrationFailed
        ∧ detail = s.pos.stage.code * 2 ^ 8)
      ∨ (i = .recalibrationTimeLimit ∧ s.pos.st = .recalibrating ∧ s.pos.ticks = some 600 ∧ f = .recalibrationFailed
        ∧ detail = s.pos.stage.code * 2 ^ 8 + 2 ^ 4)
      ∨ (i = .seekErrorRise w ∧ s.pos.st = .recalibrating ∧ s.pos.ticks.isSome = true ∧ s.drive.onCylinder = false
        ∧ f = .recalibrationFailed ∧ detail = s.pos.stage.code * 2 ^ 8 + 2 ^ 4 + 1)
      ∨ (i = .driveFaultLine w ∧ s.pos.st = .recalibrating ∧ s.pos.ticks.isSome = true
        ∧ f = .recalibrationFailed ∧ detail = s.pos.stage.code * 2 ^ 8 + 2 ^ 4 + 2)
      ∨ (((i = .onCylinderRise ∧ s.drive.seekError = true) ∨ (i = .seekErrorRise w ∧ s.drive.onCylinder = true))
        ∧ s.pos.ticks.isSome = true ∧ f = .positionerFault
        ∧ ((s.pos.st = .recalibrating ∧ detail = 2)
          ∨ (s.pos.st = .seeking ∧ detail = if s.pos.retry then 1 else 0))) →
    ∃ u, exec i s = .next u ∧ u.watch = { s.watch with st := .driveFault } ∧ u.arb.queue = []
      ∧ u.map.mapState = s.map.mapState ∧ u.map.labelState = s.map.labelState
      ∧ u.map.activeMap = s.map.activeMap ∧ Down s u
      ∧ TouchesOnly (.port .a :: .port .b :: .mbox :: .watch :: Part.reached) s u
      ∧ (Open (.sole f) s → Recorded (.sole f) detail u)

/-- In RUNNING with Positioner Control IDLE, a rise of FAULT, and with no order outstanding a fall of ON CYLINDER and a
rise of SEEK ERROR, put the position in doubt: clearing begins, the owner's grant ends charged, its passed gate is cut,
a write not yet full torn with DRIVE FAULT, an internal write is cut and its commit fails, and E13 or E10 is raised. An order is outstanding while it is offered or waits to be; then the two
change their levels alone (log 18). -/
def Obligations.DriveFaultWhileRunning : Prop :=
  ∀ (w : Carried) (s : State) (i : Instr),
    s.watch.st = .running → s.pos.st = .idle →
    (i = .driveFaultLine w
        ∨ ((i = .onCylinderFall w ∨ i = .seekErrorRise w) ∧ s.drive.offered = none ∧ s.drive.waiting = []) →
      ∃ u, exec i s = .next u ∧ u.pos.st = .clearing ∧ u.pos.stage = .recovery ∧ u.pos.cyl = none
        ∧ OrderAsked .faultClear u ∧ u.watch.st = .running
        ∧ TouchesOnly (.port .a :: .port .b :: .mbox :: .watch :: Part.reached) s u
        ∧ (∀ x, s.arb.st = .owned x → s.relay.gate = none → s.map.xfer = .none →
            (s.view x).st = .positioned → s.arb.request.get x = none →
            (u.view x).st = .standby ∧ (u.view x).target = (s.view x).target
              ∧ u.arb.usage = chargedUsage s.arb.usage x s.arb.held)
        ∧ (∀ g, s.relay.gate = some g → s.map.xfer = .none →
            GateJudged .driveFault g w s u ∧ u.drive.readGate = false ∧ u.drive.writeGate = false
              ∧ (s.arb.st = .owned g.chan → (s.view g.chan).st = .transferring → s.arb.request.get g.chan = none →
                  ¬FullShared g w →
                  (u.view g.chan).st = .standby ∧ (u.view g.chan).target = (s.view g.chan).target
                    ∧ u.arb.usage = chargedUsage s.arb.usage g.chan s.arb.held))
        ∧ (∀ v imgs, s.map.xfer = .writing v → s.map.commit = some imgs → s.arb.st = .internal →
            s.arb.queue = [.mapWrite] → s.relay.gate = none → reachedCheckWord w = false →
            ⟨⟨v, 0, .h0, 0⟩, .internal, .driveFault, s.uptime⟩ ∈ u.relay.torn ∧ u.drive.writeGate = false
              ∧ u.drive.writeData = (if v = .f then imgs.map else imgs.label.getD .zero).toList.take (wordsPassed w)
              ∧ u.map = { s.map with commit := none, xfer := u.map.xfer } ∧ u.arb.queue = []
              ∧ (Open (.sole .mapCommitFailed) s → Recorded (.sole .mapCommitFailed) 4 u))
        ∧ (i = .driveFaultLine w → Open (.sole .driveFaultLine) s → Recorded (.sole .driveFaultLine) 0 u)
        ∧ (i ≠ .driveFaultLine w → Open (.sole .seekError) s → Recorded (.sole .seekError) 2 u))
      ∧ (s.drive.offered ≠ none ∨ s.drive.waiting ≠ [] →
          exec (.onCylinderFall w) s = .next { s with drive := { s.drive with onCylinder := false } }
            ∧ exec (.seekErrorRise w) s = .next { s with drive := { s.drive with seekError := true } })

/-- Levels that change and nothing with them: the protection mark of the volume last ordered follows WRITE PROTECTED,
the other volume's mark being kept; READY between SPUN DOWN and SPINNING UP, where a fall not yet accepted goes back to
SPUN DOWN (log 32); the supply warning input clearing. -/
def Obligations.LevelsChangeAlone : Prop :=
  ∀ (level : Bool) (w : Carried) (s : State),
    (∀ h, s.pos.lastSel = some ⟨.f, h⟩ →
        exec (.writeProtectedChange level) s =
          .next { s with drive := { s.drive with writeProtected := level, protF := level } })
      ∧ (∀ h, s.pos.lastSel = some ⟨.r, h⟩ →
          exec (.writeProtectedChange level) s =
            .next { s with drive := { s.drive with writeProtected := level, protR := level } })
      ∧ (s.pos.lastSel = none →
          exec (.writeProtectedChange level) s = .next { s with drive := { s.drive with writeProtected := level } })
      ∧ (s.watch.st = .spunDown →
          exec .readyRise s =
            .next { s with drive := { s.drive with ready := true }, watch := { s.watch with st := .spinningUp } })
      ∧ (s.watch.st ≠ .spunDown → exec .readyRise s = .next { s with drive := { s.drive with ready := true } })
      ∧ (s.watch.st = .spinningUp →
          exec (.readyFall w) s =
            .next { s with
              drive := { s.drive with ready := false },
              watch := { s.watch with st := .spunDown, readyAccepted := false, readyDebounce := 0 } })
      ∧ exec .supplyWarningInputClears s = .next { s with warning := false }

/-! ## Readiness and supply -/

/-- READY accepted at a debounce of 200: the drive is calibrated, with a clearing first where it shows a fault. -/
def Obligations.ReadyAcceptedAsksCalibration : Prop :=
  ∀ s : State,
    s.drive.ready = true → s.watch.readyAccepted = false → s.watch.readyDebounce = 200 →
    s.watch.st = .spunDown ∨ s.watch.st = .spinningUp → s.pos.st = .halted →
    ∃ u, exec .readyAccepted s = .next u ∧ u.watch = { s.watch with readyAccepted := true, st := .calibrating }
      ∧ u.pos.request = some .calibration ∧ u.pos.stage = .calibration
      ∧ (s.drive.fault = true ∨ s.drive.seekError = true → u.pos.st = .clearing ∧ OrderAsked .faultClear u)
      ∧ (s.drive.fault = false → s.drive.seekError = false →
          u.pos.st = .recalibrating ∧ OrderAsked .recalibrate u)
      ∧ TouchesOnly [.pos, .drive, .watch] s u

/-- A supply warning accepted with no gate up at the drive port: SUPPLY HOLD, the halt at once, the internal queue kept,
the spin cycle owed where the drive was not accepted. With a passed write or an internal gate up, the halt waits for its
end; that it does so for a passed write whose check word's time has ended already is the model's choice (log 43). A passed
read is cut, and the halt follows at once, uncharged. In the hold an accepted fall of READY, or a loss of rotation (log
12), takes the effects of a spin-down but for Drive Watch's state, with no E15: a write still up is cut, torn with DRIVE
DROPPED; among Drive Watch's values the spin-up mark is the model's own (log 29). The clearing accepted at a debounce of
100 ends the hold, a write still waited for or not (log 30): CALIBRATING with READY accepted, else SPUN DOWN or SPINNING
UP by the line. -/
def Obligations.SupplyHoldBeginsAndEnds : Prop :=
  ∀ (w : Carried) (s : State),
    (s.watch.warnAccepted = false → s.watch.st ≠ .supplyHold → s.watch.st ≠ .driveFault →
        ∃ u, exec (.supplyWarning w) s = .next u ∧ u.watch.st = .supplyHold ∧ u.watch.warnAccepted = true
          ∧ u.watch.clearDebounce = 0 ∧ u.warning = true
          ∧ (u.watch.spinOwed = true ↔ s.watch.st = .spunDown ∨ s.watch.st = .spinningUp
              ∨ (s.watch.st = .calibrating ∧ s.watch.readyAccepted = false))
          ∧ (Open (.sole .supplyWarning) s → Recorded (.sole .supplyWarning) s.watch.st.code u)
          ∧ (s.relay.gate = none → s.drive.readGate = false → s.drive.writeGate = false →
              u.arb.queue = s.arb.queue ∧ u.arb.usage = s.arb.usage ∧ u.map = { s.map with xfer := .none } ∧ Down s u
                ∧ u.watch.writeEndWait = false ∧ TouchesOnly (.watch :: .warning :: Part.reached) s u)
          ∧ ((∃ g, s.relay.gate = some g ∧ g.kind ≠ .read) ∨ s.relay.gate = none →
              s.drive.readGate = true ∨ s.drive.writeGate = true →
              u.watch.writeEndWait = true ∧ TouchesOnly [.watch, .warning, .ev] s u)
          ∧ (∀ c g, PlainGate s c g → g.kind = .read →
              u.relay.gate = none ∧ u.drive.readGate = false ∧ u.watch.writeEndWait = false
                ∧ (u.port c).readData = readDataRelayed g ((((s.view c).target).map (·.logical)).getD 0) w
                ∧ u.arb.queue = s.arb.queue ∧ u.arb.usage = s.arb.usage ∧ Down s u
                ∧ TouchesOnly (.port c :: .mbox :: .watch :: .warning :: Part.reached) s u))
      ∧ (∀ i, s.watch.st = .supplyHold → s.watch.readyAccepted = true →
          i = .readyFall w ∨ (i = .rotationLost w ∧ s.watch.gap = 5) →
          ∃ u, exec i s = .next u
            ∧ u.watch = { s.watch with
                readyAccepted := false, readyDebounce := 0, spinOwed := true, labelOwed := true, sync := false,
                spinUp := true, writeEndWait := false,
                priorValid := (match s.map.labelState with
                  | .valid => true
                  | .unlabelled => false
                  | .absent => s.watch.priorValid) }
            ∧ u.map.labelState = .absent ∧ u.map.mapState = s.map.mapState ∧ u.map.heldLabel = s.map.heldLabel
            ∧ u.map.xfer = .none ∧ u.drive.protR = false ∧ u.drive.protF = s.drive.protF ∧ u.arb.queue = []
            ∧ ((∀ g, s.relay.gate = some g → ¬FullShared g w) → u.arb.usage = s.arb.usage)
            ∧ (∀ g, s.relay.gate = some g → s.map.xfer = .none →
                GateJudged .driveDropped g w s u ∧ u.drive.readGate = false ∧ u.drive.writeGate = false)
            ∧ (∀ e ∈ u.ilock.list, e.vol = .f)
            ∧ (s.watch.writeEndWait = true → Down s u)
            ∧ u.ev.record (.sole .rotationLost) = s.ev.record (.sole .rotationLost)
            ∧ TouchesOnly (.port .a :: .port .b :: .mbox :: .watch :: Part.reached) s u)
      ∧ (s.watch.warnAccepted = true → s.warning = false → s.watch.clearDebounce = 100 → s.watch.st = .supplyHold →
          ∃ u, exec .supplyClearAccepted s = .next u ∧ u.watch.warnAccepted = false
            ∧ (s.watch.readyAccepted = true → u.watch.st = .calibrating
                ∧ (s.pos.st = .halted → u.pos.request = some .calibration ∧ u.pos.stage = .calibration)
                ∧ TouchesOnly [.pos, .drive, .watch] s u)
            ∧ (s.watch.readyAccepted = false →
                u.watch.st = (if s.drive.ready then .spinningUp else .spunDown) ∧ TouchesOnly [.watch] s u))

/-! ## Arbitration and interlocks -/

/-- With both channels eligible, nothing internal waiting and neither past its wait limit, a FREE arbiter's decision
goes to the channel whose product is lower, and away from the last channel granted where they are equal. -/
def Obligations.UsageComparisonNamesWinner : Prop :=
  ∀ (s : State) (pa pb : Place),
    s.arb.st = .free → s.arb.queue = [] → s.arb.request = ⟨some pa, some pb⟩ → s.map.mapState = .valid →
    (∀ c, ¬((paramsOf s.map.activeMap c).lw ≠ 0 ∧ (paramsOf s.map.activeMap c).lw ≤ (s.view c).wait)) →
    let pA := s.arb.usage.a * (paramsOf s.map.activeMap .b).w
    let pB := s.arb.usage.b * (paramsOf s.map.activeMap .a).w
    (decideGrant s).arb.gLast = (if pA < pB then .a else if pB < pA then .b else peer s.arb.gLast)
      ∧ (s.arb.usage.a ≤ 32767 → s.arb.usage.b ≤ 32767 → (paramsOf s.map.activeMap .a).w ≤ 15 →
          (paramsOf s.map.activeMap .b).w ≤ 15 → pA ≤ 491505 ∧ pB ≤ 491505)

/-- The wait limit step: the one channel past its limit, or the longer waiter of two, or with equal waits the channel
not granted last; E25 carries the winner's wait. -/
def Obligations.WaitLimitNamesWinner : Prop :=
  ∀ (s : State) (pa pb : Place) (x : Chan),
    s.arb.st = .free → s.arb.queue = [] → s.arb.request = ⟨some pa, some pb⟩ → s.map.mapState = .valid →
    (paramsOf s.map.activeMap x).lw ≠ 0 → (paramsOf s.map.activeMap x).lw ≤ (s.view x).wait →
    ((paramsOf s.map.activeMap (peer x)).lw = 0
      ∨ (s.view (peer x)).wait < (paramsOf s.map.activeMap (peer x)).lw
      ∨ (s.view (peer x)).wait < (s.view x).wait
      ∨ ((s.view (peer x)).wait = (s.view x).wait ∧ s.arb.gLast = peer x)) →
    (decideGrant s).arb.gLast = x ∧ OnlyRaises [.chan x .waitLimitGrant] s (decideGrant s)
      ∧ (Open (.chan x .waitLimitGrant) s → Recorded (.chan x .waitLimitGrant) (s.view x).wait (decideGrant s))

/-- The release interval and the budget expiry end the grant of a POSITIONED owner with the peer waiting: the charge,
STANDBY with the target kept, the peer's grant begun; PREEMPTED and E24 at a budget alone. During a passed gate a budget
expiry marks release-pending and changes nothing else; the grant ends so, by the budget, at that gate's drop. Where the
gate was a full SHARED write that defers the waiting peer, waiting has ended: the mark is cleared, the clock is 0, and the
grant goes on. -/
def Obligations.GrantEndsForWaitingPeer : Prop :=
  ∀ (x : Chan) (p : Place) (s : State) (i : Instr),
    s.arb.st = .owned x → s.arb.request.get (peer x) = some p →
    ((s.view x).st = .positioned → s.arb.queue = [] → s.arb.request.get x = none → s.map.mapState = .valid →
        (i = .releaseInterval ∧ (paramsOf s.map.activeMap x).l ≤ (s.view x).idle)
          ∨ (i = .budgetExpiry ∧ s.arb.budget ≤ s.arb.clock ∧ s.arb.releasePending = false) →
        ∃ u, exec i s = .next u ∧ GrantPassed x p s u
          ∧ TouchesOnly [.view .a, .view .b, .arb, .pos, .drive, .relay, .ev] s u
          ∧ (i = .releaseInterval → (u.view x).causes = (s.view x).causes ∧ u.ev = s.ev)
          ∧ (i = .budgetExpiry → Preempted x s u))
      ∧ ((s.view x).st = .transferring → s.arb.budget ≤ s.arb.clock → s.arb.releasePending = false →
          exec .budgetExpiry s = .next { s with arb := { s.arb with releasePending := true } })
      ∧ (∀ (g : GateRecord) (w : Carried), s.relay.gate = some g → g.chan = x → (s.view x).st = .transferring →
          s.arb.releasePending = true → s.watch.st ≠ .supplyHold → s.arb.queue = [] → s.arb.request.get x = none →
          (¬FullShared g w → s.map.mapState = .valid →
              ∃ u, exec (.gateDrop x w) s = .next u ∧ GrantPassed x p s u ∧ Preempted x s u
                ∧ GateJudged .shortWrite g w s u ∧ u.drive.readGate = false ∧ u.drive.writeGate = false
                ∧ TouchesOnly [.view .a, .view .b, .port x, .arb, .pos, .drive, .relay, .mbox, .ev] s u)
            ∧ (FullShared g w → heldBy s x ⟨g.addr.vol, g.addr.cyl⟩ = false →
                heldBy s (peer x) ⟨g.addr.vol, g.addr.cyl⟩ = false → (s.view (peer x)).st = .requesting →
                (s.view (peer x)).place = some ⟨g.addr.vol, g.addr.cyl⟩ →
                ∃ u, exec (.gateDrop x w) s = .next u ∧ u.view x = { s.view x with st := .positioned, idle := 0 }
                  ∧ u.view (peer x) = { s.view (peer x) with st := .deferred }
                  ∧ u.arb = { s.arb with
                      request := s.arb.request.set (peer x) none, clock := 0, releasePending := false }
                  ∧ u.ev.record (.chan x .budgetPreemption) = s.ev.record (.chan x .budgetPreemption)
                  ∧ TouchesOnly (.port x :: Part.reached) s u))

/-- The charge of a grant end: the sum saturates at 65535, and where either count has reached 32768 both are halved. -/
def Obligations.ChargeSaturatesThenHalves : Prop :=
  ∀ (u : Pair Nat) (x : Chan) (h : Nat), u.a ≤ 32767 → u.b ≤ 32767 →
    let sum := if 65535 < u.get x + h then 65535 else u.get x + h
    (sum < 32768 → (chargedUsage u x h).get x = sum ∧ (chargedUsage u x h).get (peer x) = u.get (peer x))
      ∧ (32768 ≤ sum →
          (chargedUsage u x h).get x = sum / 2 ∧ (chargedUsage u x h).get (peer x) = u.get (peer x) / 2)
      ∧ (chargedUsage u x h).a ≤ 32767 ∧ (chargedUsage u x h).b ≤ 32767

/-- C ticks after a holder's chain stamp every entry of that channel goes, and no other where none is M ticks old; an
entry M ticks old is removed alone, with E22. A DEFERRED peer whose place is clear then is released; one whose place an
older entry still holds stays DEFERRED; with no DEFERRED peer nothing but the list changes. -/
def Obligations.InterlocksEnd : Prop :=
  ∀ (c : Chan) (stamp : Stamp) (e : Entry) (s : State), s.map.mapState = .valid → InterlockLaw s →
    (s.ilock.chain.get c = some stamp → imageWord s.map.activeMap 10 ≤ (s.uptime - stamp).toNat →
        (∀ x ∈ s.ilock.list, (s.uptime - x.first).toNat < imageWord s.map.activeMap 11) →
        ∃ u, exec (.interlockChainEnd c) s = .next u
          ∧ u.ilock.list = s.ilock.list.filter (fun x => decide (x.holder ≠ c)) ∧ u.ilock.chain.get c = none
          ∧ u.ilock.chain.get (peer c) = s.ilock.chain.get (peer c)
          ∧ ((s.view (peer c)).st = .deferred → (u.view (peer c)).st ≠ .deferred)
          ∧ ((s.view (peer c)).st ≠ .deferred → u = { s with ilock := u.ilock })
          ∧ TouchesOnly Part.reached s u)
      ∧ (e ∈ s.ilock.list → imageWord s.map.activeMap 11 ≤ (s.uptime - e.first).toNat →
          ∃ u, exec (.interlockAgedOut e.vol e.cyl) s = .next u
            ∧ u.ilock.list = s.ilock.list.filter (fun x => decide (x ≠ e))
            ∧ TouchesOnly Part.reached s u
            ∧ (Open (.sole .interlockAgedOut) s → Recorded (.sole .interlockAgedOut) e.sectors u)
            ∧ ((s.view (peer e.holder)).st = .deferred → (s.view (peer e.holder)).place = some e.place →
                (u.view (peer e.holder)).st ≠ .deferred)
            ∧ (∀ p, (s.view (peer e.holder)).st = .deferred → (s.view (peer e.holder)).place = some p →
                p ≠ e.place → heldBy s e.holder p = true →
                u.view (peer e.holder) = s.view (peer e.holder) ∧ u.ilock.deferred.get (peer e.holder) = some p)
            ∧ ((s.view (peer e.holder)).st ≠ .deferred → u = { s with ilock := u.ilock, ev := u.ev }))

/-! ## The maintenance line -/

/-- `P pp` sets the page selector, or is answered `?P`; `I` is answered `= 7420`, `K` empties the torn list, `X` is
answered `OK` with the restart to follow. -/
def Obligations.SimpleFramesAnswered : Prop :=
  ∀ (page : Nat) (s : State), s.line.reply = none →
    (page ≤ 12 →
        exec (.pCommand page) s =
          .next (answered (Frame.page page).chars .ok { s with line := { s.line with page := page } }))
      ∧ (12 < page → exec (.pCommand page) s = .next (answered (Frame.page page).chars .badPage s))
      ∧ exec .iCommand s = .next (answered Frame.ident.chars (.value 0x7420#16) s)
      ∧ exec .kCommand s =
          .next (answered Frame.clearTorn.chars .ok { s with relay := { s.relay with torn := [] } })
      ∧ exec .xCommand s =
          .next (answered Frame.restart.chars .ok { s with line := { s.line with restartDue := true } })

/-- `U` sets both usage counts to 0 in every arbiter state, is answered `OK`, and changes nothing else: G_last, the
grant-start stamp and the held time stand. A grant in progress is charged onto the zero count, and the next decision
between two eligible channels goes away from G_last. -/
def Obligations.UsageCommandZeroesCounts : Prop :=
  ∀ s : State, s.line.reply = none →
    let t := answered Frame.zeroUsage.chars .ok { s with arb := { s.arb with usage := ⟨0, 0⟩ } }
    exec .uCommand s = .next t
      ∧ (∀ x, s.arb.held ≤ 65535 →
          chargedUsage t.arb.usage x s.arb.held =
            Pair.set ⟨0, 0⟩ x (if s.arb.held < 32768 then s.arb.held else s.arb.held / 2))
      ∧ (∀ pa pb : Place, s.arb.st = .free → s.arb.queue = [] → s.arb.request = ⟨some pa, some pb⟩ →
          s.map.mapState = .valid →
          (∀ c, ¬((paramsOf s.map.activeMap c).lw ≠ 0 ∧ (paramsOf s.map.activeMap c).lw ≤ (s.view c).wait)) →
          (decideGrant t).arb.gLast = peer s.arb.gLast)

/-- `R ii` answers with the word of the page, or `?I` beyond its length, and changes nothing but the line; on page 0 the
uptime low word sets the latch and the high word reads and removes it. The frame buffer holds the characters received
(log 27). The words of the pages are those of R173, every page whole; what R173 leaves open in them is log 25, log 26, log
28, log 48 and log 49. -/
def Obligations.ReadFrameAnswered : Prop :=
  ∀ (ii : BitVec 8) (text : List (BitVec 8)) (s : State), s.line.reply = none →
    (pageLength s.line.page ≤ ii.toNat → exec (.rCommand ii text) s = .next (answered text .badIndex s))
      ∧ (ii.toNat < pageLength s.line.page → ¬(s.line.page = 0 ∧ (ii = 12#8 ∨ ii = 13#8)) →
          exec (.rCommand ii text) s =
            .next (answered text (.value (pageWord s s.line.page ii.toNat)) s))
      ∧ (s.line.page = 0 →
          exec (.rUptimeLow text) s =
              .next (answered text (.value (s.uptime.extractLsb' 0 16))
                { s with line := { s.line with latch := some (s.uptime.extractLsb' 16 16) } })
            ∧ exec (.rUptimeHigh text) s =
              .next (answered text
                (.value (match s.line.latch with
                  | some h => h
                  | none => s.uptime.extractLsb' 16 16))
                { s with line := { s.line with latch := none } }))
      ∧ exec (.rCommand 12#8 text) s = exec (.rUptimeLow text) s
      ∧ exec (.rCommand 13#8 text) s = exec (.rUptimeHigh text) s
      ∧ PagesShown s

/-- `W ii hhhh`: an enable word of page 7, the contact judged again; a word of a staged image while no commit is in
flight; `?I` beyond the page, `?R` for a word that is not writable, `?B` during a commit. -/
def Obligations.WriteFrameAnswered : Prop :=
  ∀ (ii : BitVec 8) (v : Word) (text : List (BitVec 8)) (s : State), s.line.reply = none →
    (s.line.page = 7 → 3 ≤ ii.toNat → ii.toNat < 9 →
        ∃ u, exec (.wEnableWord ii v text) s = .next u
          ∧ u = answered text .ok { s with ev := u.ev }
          ∧ (∀ f, u.ev.record f = s.ev.record f)
          ∧ (u.ev.contact = true ↔ ∃ f, (u.ev.record f).isSome = true ∧ u.ev.alarmEnable.get f = true)
          ∧ u.ev.recordEnable =
              { a := if ii.toNat = 3 then v.extractLsb' 0 14 else s.ev.recordEnable.a,
                b := if ii.toNat = 4 then v.extractLsb' 0 14 else s.ev.recordEnable.b,
                sole := if ii.toNat = 5 then v.extractLsb' 0 15 else s.ev.recordEnable.sole }
          ∧ u.ev.alarmEnable =
              { a := if ii.toNat = 6 then v.extractLsb' 0 14 else s.ev.alarmEnable.a,
                b := if ii.toNat = 7 then v.extractLsb' 0 14 else s.ev.alarmEnable.b,
                sole := if ii.toNat = 8 then v.extractLsb' 0 15 else s.ev.alarmEnable.sole })
      ∧ (s.line.page = 9 → s.map.commit = none →
          exec (.wStagedImage ii v text) s =
            .next (answered text .ok
              { s with map := { s.map with stagedMap := s.map.stagedMap.setIfInBounds ii.toNat v } }))
      ∧ (s.line.page = 11 → s.map.commit = none →
          exec (.wStagedImage ii v text) s =
            .next (answered text .ok
              { s with map := { s.map with stagedLabel := s.map.stagedLabel.setIfInBounds ii.toNat v } }))
      ∧ (s.line.page = 9 ∨ s.line.page = 11 → s.map.commit.isSome = true →
          exec (.wStagedImage ii v text) s = .next (answered text .busy s))
      ∧ (pageLength s.line.page ≤ ii.toNat →
          ∀ i ∈ [Instr.wEnableWord ii v text, .wStagedImage ii v text, .wNotWritable ii v text],
            exec i s = .next (answered text .badIndex s))
      ∧ (s.line.page ≠ 9 → s.line.page ≠ 11 → ii.toNat < pageLength s.line.page →
          (s.line.page = 7 → ii.toNat < 3) →
          exec (.wNotWritable ii v text) s = .next (answered text .readOnly s))

/-- A take of a flag word: the reply is the word as it stood, exactly the flags of that word are cleared and their
records freed, enables and other flags stay, the contact is judged; any other `T` is answered `?I` and changes
nothing. The word has a bit for each flag of its run, set exactly while the flag's record is held, and no other. -/
def Obligations.TakeClearsFlagsItShows : Prop :=
  ∀ (ii : BitVec 8) (text : List (BitVec 8)) (s : State), s.line.reply = none →
    (s.line.page = 7 → ii.toNat < 3 →
        ∃ u, exec (.tCommand ii text) s = .next u
          ∧ u = answered text (.value (flagWord s.ev ii.toNat)) { s with ev := u.ev }
          ∧ (∀ e, u.ev.record (.chan .a e) = if ii.toNat = 0 then none else s.ev.record (.chan .a e))
          ∧ (∀ e, u.ev.record (.chan .b e) = if ii.toNat = 1 then none else s.ev.record (.chan .b e))
          ∧ (∀ e, u.ev.record (.sole e) = if ii.toNat = 2 then none else s.ev.record (.sole e))
          ∧ u.ev.recordEnable = s.ev.recordEnable ∧ u.ev.alarmEnable = s.ev.alarmEnable
          ∧ (u.ev.contact = true ↔ ∃ f, (u.ev.record f).isSome = true ∧ u.ev.alarmEnable.get f = true))
      ∧ (¬(s.line.page = 7 ∧ ii.toNat < 3) → exec (.tCommand ii text) s = .next (answered text .badIndex s))
      ∧ FlagWordsShown s.ev

/-- `C` is judged in order: `?B`, `?N`, `?V n`; otherwise the commit is in flight with the images fixed and its MAP
WRITE queued, or, refused at a full queue, has failed with E20. The reason n is the lowest of V1 to V8 that holds of the
staged map, and with a VALID label of the staged label with it. The map image fixed is the staged one with the next
revision count, its ignored words zero and its sum 0; the label image fixed is the staged one so, where the label is VALID
and the staged one differs from the held. -/
def Obligations.CommitFrameJudged : Prop :=
  ∀ s : State, s.line.reply = none →
    (s.map.commit.isSome = true → exec .cCommand s = .next (answered Frame.commit.chars .busy s))
      ∧ (s.map.commit = none → s.watch.st ≠ .running →
          exec .cCommand s = .next (answered Frame.commit.chars .notRunning s))
      ∧ (∀ n, s.map.commit = none → s.watch.st = .running → validateStaged s.map = some n →
          exec .cCommand s = .next (answered Frame.commit.chars (.invalid n) s))
      ∧ (s.map.commit = none → s.watch.st = .running → validateStaged s.map = none →
          s.arb.queue.contains .mapWrite = false → s.arb.queue.length < 2 →
          ∃ u, exec .cCommand s = .next u ∧ u.line.reply = some .ok ∧ u.arb.queue = s.arb.queue ++ [.mapWrite]
            ∧ u.map = { s.map with commit := some (commitImages s.map), xfer := u.map.xfer }
            ∧ TouchesOnly (.line :: Part.reached) s u)
      ∧ (s.map.commit = none → s.watch.st = .running → validateStaged s.map = none →
          s.arb.queue.contains .mapWrite = false → 2 ≤ s.arb.queue.length →
          ∃ u, exec .cCommand s = .next u ∧ u = { answered Frame.commit.chars .ok s with ev := u.ev }
            ∧ OnlyRaises [.sole .mapCommitFailed] s u
            ∧ (Open (.sole .mapCommitFailed) s → Recorded (.sole .mapCommitFailed) 1 u))
      ∧ (∀ n, validateStaged s.map = some n ↔
          LowestReason (some s.map.stagedMap)
            (if s.map.labelState = .valid then some s.map.stagedLabel else none) n)
      ∧ (let image := (commitImages s.map).map
         imageWord image 1 =
             ((if s.map.mapState = .valid then imageWord s.map.activeMap 1 else 0) + 1) % 65536
           ∧ (∀ k, k < 44 → k ≠ 1 → imageWord image k = imageWord s.map.stagedMap k)
           ∧ (∀ k, 44 ≤ k → k ≤ 254 → imageWord image k = 0) ∧ SumsToZero image)
      ∧ (let same := s.map.stagedLabel = s.map.heldLabel.getD .zero
         (s.map.labelState ≠ .valid ∨ same → (commitImages s.map).label = none)
           ∧ (s.map.labelState = .valid → ¬same →
              ∃ image, (commitImages s.map).label = some image
                ∧ (∀ k, k < 34 → imageWord image k = imageWord s.map.stagedLabel k)
                ∧ (∀ k, 34 ≤ k → k ≤ 254 → imageWord image k = 0) ∧ SumsToZero image))

/-- A malformed frame is answered `?F` and changes nothing but the line; the end of a reply empties the frame buffer;
the end of the reply to `X` is the restart: power-on's values, the event state and the uptime kept, the restart count
one more, no E29. A gate up at the restart is judged at its cut, before the values are reset, and the events of that
judgement are kept (log 19): a torn write's E7, whose cause the rules do not name, a full mailbox write's E26 or E27, a full
SHARED write's E23 where its channel has 4 entries. -/
def Obligations.MalformedFrameAndReplyEnd : Prop :=
  ∀ (chars : List RxChar) (w : Carried) (s : State),
    (s.line.reply = none →
        ∃ u, exec (.malformedFrame chars) s = .next u ∧ u.line.reply = some .badFrame
          ∧ u = { s with line := { s.line with
              frame := u.line.frame, frameError := u.line.frameError, reply := some .badFrame } })
      ∧ (s.line.reply.isSome = true → s.line.restartDue = false →
          exec (.replySent w) s =
            .next { s with line := { s.line with frame := [], frameError := false, reply := none } })
      ∧ (s.line.reply.isSome = true → s.line.restartDue = true →
          ∃ u, exec (.replySent w) s = .next u ∧ u.uptime = s.uptime
            ∧ u.line.restartCount = s.line.restartCount + 1#16 ∧ u.line.page = 0 ∧ u.line.reply = none
            ∧ u.inputLines = s.inputLines ∧ u.pending = s.pending
            ∧ (∀ c, u.view c = View.initial) ∧ u.map = MapStore.initial ∧ u.arb = Arbiter.initial
            ∧ u.pos = Positioner.initial ∧ u.relay = Relay.initial ∧ u.ilock = Interlock.initial
            ∧ u.mbox = Mailbox.initial ∧ u.drive.present = true ∧ u.drive.readGate = false
            ∧ u.drive.writeGate = false
            ∧ u.watch.st = (if s.warning then .supplyHold else if s.drive.ready then .spinningUp else .spunDown)
            ∧ u.ev.recordEnable = s.ev.recordEnable ∧ u.ev.alarmEnable = s.ev.alarmEnable
            ∧ u.ev.record (.sole .supplyWarning) = s.ev.record (.sole .supplyWarning)
            ∧ (∀ f r, s.ev.record f = some r → u.ev.record f = some r)
            ∧ (s.relay.gate = none → (∀ v, s.map.xfer ≠ .writing v) → u.ev = s.ev)
            ∧ (∀ c g, PlainGate s c g → (∀ v, s.map.xfer ≠ .writing v) →
                (g.kind ≠ .read → reachedCheckWord w = false →
                  OnlyRaises [.chan c .tornSector, .sole .tornListOverflow] s u
                    ∧ (Open (.chan c .tornSector) s →
                        ∃ r, u.ev.record (.chan c .tornSector) = some r
                          ∧ r.detail.toNat % 2 ^ 12 = wordsPassed w))
                  ∧ (g.kind ≠ .read → reachedCheckWord w = true → g.cls = .mailbox → g.addr.head = .h0 →
                    posted s g.addr.sector = false → ∀ routing, w.data.head? = some routing →
                      (routing.extractLsb' 8 8 = 0x01#8 →
                        ∀ e, s.mbox.expected.get c = some e → routing.extractLsb' 0 8 ≠ e →
                          Open (.chan c .mailboxSequenceGap) s →
                          Recorded (.chan c .mailboxSequenceGap)
                            ((routing.extractLsb' 0 8).toNat * 2 ^ 8 + e.toNat) u)
                        ∧ (routing.extractLsb' 8 8 ≠ 0x00#8 → routing.extractLsb' 8 8 ≠ 0x01#8 →
                          Open (.chan c .mailboxUnrouted) s →
                          Recorded (.chan c .mailboxUnrouted) routing.toNat u))
                  ∧ (g.kind ≠ .read → reachedCheckWord w = true → g.cls = .shared →
                    ∀ old rest, heldBy s c ⟨g.addr.vol, g.addr.cyl⟩ = false →
                      heldBy s (peer c) ⟨g.addr.vol, g.addr.cyl⟩ = false → entriesOf s c = old :: rest →
                      rest.length = 3 → Open (.chan c .interlockOverflow) s →
                      Recorded (.chan c .interlockOverflow) old.sectors u)))

/-! ## Status levels -/

/-- The six status levels of a channel port, by its view. DETACHED: every one low. Otherwise READY is high exactly while
the selected volume is usable and the view is not NOT READY; ON CYLINDER exactly in POSITIONED and TRANSFERRING; FAULT
exactly in FAULTED; SEEK ERROR by its mark; WRITE PROTECTED exactly with a target that is READ-ONLY, with one that is
MAILBOX at head 1, with the selected volume's protection mark, and with slot protection; ATTENTION exactly while some
cause is present. Volume F is usable in RUNNING with a VALID map, R with a VALID label besides. -/
def Obligations.PortLevelsFollowView : Prop :=
  ∀ (c : Chan) (s : State),
    let v := s.view c
    let p := portLevels s c
    let driveUsable := s.watch.st = .running ∧ s.map.mapState = .valid
    (v.st = .detached → p = ⟨false, false, false, false, false, false⟩)
      ∧ (v.st ≠ .detached →
        (p.ready = true ↔ v.st ≠ .notReady ∧ driveUsable ∧ (v.sel.vol = .r → s.map.labelState = .valid))
          ∧ (p.onCylinder = true ↔ v.st = .positioned ∨ v.st = .transferring)
          ∧ (p.fault = true ↔ v.st = .faulted)
          ∧ p.seekError = v.seekError
          ∧ (p.writeProtected = true ↔
              (∃ t, v.target = some t ∧ (t.cls = .readOnly ∨ (t.cls = .mailbox ∧ v.sel.head = .h1)))
                ∨ (if v.sel.vol = .f then s.drive.protF else s.drive.protR) = true ∨ v.slotProt = true)
          ∧ (p.attention = true ↔ v.causes ≠ .empty))
end

