-- ==== Sys2Proof/Laws/State.lean ====
section
/-! SUPPORT. What each primitive update leaves in each field of the state: simp lemmas, true by rfl. -/

namespace Sys2Proof.Machine

/-! ## Pairs -/

@[simp] theorem peer_peer (c : Chan) : peer (peer c) = c := by cases c <;> rfl

@[simp] theorem peer_ne (c : Chan) : peer c ≠ c := by cases c <;> decide

@[simp] theorem ne_peer (c : Chan) : c ≠ peer c := by cases c <;> decide

theorem eq_peer_of_ne {c d : Chan} (h : d ≠ c) : d = peer c := by cases c <;> cases d <;> simp_all [peer]

@[simp] theorem Pair.get_set_self {α : Type} (p : Pair α) (c : Chan) (x : α) : (p.set c x).get c = x := by
  cases c <;> rfl

@[simp] theorem Pair.get_set_peer {α : Type} (p : Pair α) (c : Chan) (x : α) :
    (p.set c x).get (peer c) = p.get (peer c) := by cases c <;> rfl

@[simp] theorem Pair.get_peer_set {α : Type} (p : Pair α) (c : Chan) (x : α) :
    (p.set (peer c) x).get c = p.get c := by cases c <;> rfl

theorem Pair.get_set {α : Type} (p : Pair α) (c d : Chan) (x : α) :
    (p.set c x).get d = if d = c then x else p.get d := by cases c <;> cases d <;> rfl

@[simp] theorem Pair.set_get {α : Type} (p : Pair α) (c : Chan) : p.set c (p.get c) = p := by cases c <;> rfl

@[simp] theorem Pair.set_set {α : Type} (p : Pair α) (c : Chan) (x y : α) : (p.set c x).set c y = p.set c y := by
  cases c <;> rfl

theorem Pair.ext_get {α : Type} {p q : Pair α} (h : ∀ c, p.get c = q.get c) : p = q := by
  have ha := h .a
  have hb := h .b
  cases p; cases q; simp_all [Pair.get]

/-! ## Views and ports -/

@[simp] theorem setView_view (c d : Chan) (v : View) (s : State) :
    (setView c v s).view d = if d = c then v else s.view d := by
  cases c <;> cases d <;> rfl

theorem setView_view_self (c : Chan) (v : View) (s : State) : (setView c v s).view c = v := by simp

theorem setView_view_peer (c : Chan) (v : View) (s : State) : (setView c v s).view (peer c) = s.view (peer c) := by
  simp

@[simp] theorem setView_port (c d : Chan) (v : View) (s : State) : (setView c v s).port d = s.port d := rfl

@[simp] theorem setView_views (c : Chan) (v : View) (s : State) : (setView c v s).views = s.views.set c v := rfl

@[simp] theorem setView_same (c : Chan) (v : View) (s : State) :
    (setView c v s).ports = s.ports ∧ (setView c v s).map = s.map ∧ (setView c v s).arb = s.arb
      ∧ (setView c v s).pos = s.pos ∧ (setView c v s).drive = s.drive ∧ (setView c v s).relay = s.relay
      ∧ (setView c v s).ilock = s.ilock ∧ (setView c v s).mbox = s.mbox ∧ (setView c v s).watch = s.watch
      ∧ (setView c v s).ev = s.ev ∧ (setView c v s).line = s.line ∧ (setView c v s).warning = s.warning
      ∧ (setView c v s).uptime = s.uptime ∧ (setView c v s).free = s.free ∧ (setView c v s).pending = s.pending := by
  refine ⟨?_, ?_, ?_, ?_, ?_, ?_, ?_, ?_, ?_, ?_, ?_, ?_, ?_, ?_, ?_⟩ <;> rfl

@[simp] theorem setView_setView (c : Chan) (v w : View) (s : State) : setView c v (setView c w s) = setView c v s := by
  simp [setView]

@[simp] theorem setView_view_get (c : Chan) (s : State) : setView c (s.view c) s = s := by
  simp [setView, State.view]

@[simp] theorem setPort_port (c d : Chan) (p : Port) (s : State) :
    (setPort c p s).port d = if d = c then p else s.port d := by
  cases c <;> cases d <;> rfl

@[simp] theorem setPort_view (c d : Chan) (p : Port) (s : State) : (setPort c p s).view d = s.view d := rfl

@[simp] theorem setPort_ports (c : Chan) (p : Port) (s : State) : (setPort c p s).ports = s.ports.set c p := rfl

@[simp] theorem setPort_same (c : Chan) (p : Port) (s : State) :
    (setPort c p s).views = s.views ∧ (setPort c p s).map = s.map ∧ (setPort c p s).arb = s.arb
      ∧ (setPort c p s).pos = s.pos ∧ (setPort c p s).drive = s.drive ∧ (setPort c p s).relay = s.relay
      ∧ (setPort c p s).ilock = s.ilock ∧ (setPort c p s).mbox = s.mbox ∧ (setPort c p s).watch = s.watch
      ∧ (setPort c p s).ev = s.ev ∧ (setPort c p s).line = s.line ∧ (setPort c p s).warning = s.warning
      ∧ (setPort c p s).uptime = s.uptime ∧ (setPort c p s).free = s.free ∧ (setPort c p s).pending = s.pending := by
  refine ⟨?_, ?_, ?_, ?_, ?_, ?_, ?_, ?_, ?_, ?_, ?_, ?_, ?_, ?_, ?_⟩ <;> rfl

@[simp] theorem setPort_setPort (c : Chan) (p q : Port) (s : State) : setPort c p (setPort c q s) = setPort c p s := by
  simp [setPort]

@[simp] theorem setPort_port_get (c : Chan) (s : State) : setPort c (s.port c) s = s := by
  simp [setPort, State.port]

/-- A port and a view are set in either order. -/
theorem setView_setPort (c d : Chan) (v : View) (p : Port) (s : State) :
    setView c v (setPort d p s) = setPort d p (setView c v s) := rfl

@[simp] theorem setViewState_view (c d : Chan) (st : ViewState) (s : State) :
    (setViewState c st s).view d = if d = c then { s.view c with st := st } else s.view d := by
  simp [setViewState]

/-! ## Updates of one block -/

@[simp] theorem setDeferred_ilock (c : Chan) (p : Option Place) (s : State) :
    (setDeferred c p s).ilock = { s.ilock with deferred := s.ilock.deferred.set c p } := rfl

@[simp] theorem setDeferred_same (c : Chan) (p : Option Place) (s : State) :
    (setDeferred c p s).views = s.views ∧ (setDeferred c p s).ports = s.ports ∧ (setDeferred c p s).map = s.map
      ∧ (setDeferred c p s).arb = s.arb ∧ (setDeferred c p s).pos = s.pos ∧ (setDeferred c p s).drive = s.drive
      ∧ (setDeferred c p s).relay = s.relay ∧ (setDeferred c p s).mbox = s.mbox ∧ (setDeferred c p s).watch = s.watch
      ∧ (setDeferred c p s).ev = s.ev ∧ (setDeferred c p s).line = s.line ∧ (setDeferred c p s).warning = s.warning
      ∧ (setDeferred c p s).uptime = s.uptime ∧ (setDeferred c p s).pending = s.pending := by
  refine ⟨?_, ?_, ?_, ?_, ?_, ?_, ?_, ?_, ?_, ?_, ?_, ?_, ?_, ?_⟩ <;> rfl

@[simp] theorem setDeferred_view (c d : Chan) (p : Option Place) (s : State) :
    (setDeferred c p s).view d = s.view d := rfl

@[simp] theorem setChain_ilock (c : Chan) (t : Stamp) (s : State) :
    (setChain c t s).ilock = { s.ilock with chain := s.ilock.chain.set c (some t) } := rfl

@[simp] theorem setTorn_relay (l : List TornEntry) (s : State) : (setTorn l s).relay = { s.relay with torn := l } := rfl

@[simp] theorem setXfer_map (x : Xfer) (s : State) : (setXfer x s).map = { s.map with xfer := x } := rfl

@[simp] theorem setWatchState_watch (st : WatchState) (s : State) :
    (setWatchState st s).watch = { s.watch with st := st } := rfl

@[simp] theorem setRotation_watch (k : Fin 24) (b : Bool) (s : State) :
    (setRotation k b s).watch = { s.watch with sector := k, sync := b, gap := 0 } := rfl

@[simp] theorem reply_line (r : Reply) (s : State) : (reply r s).line = { s.line with reply := some r } := rfl

@[simp] theorem dropStrobe_drive (s : State) : (dropStrobe s).drive = { s.drive with offered := none } := rfl

/-! ## The event unit -/

@[simp] theorem raise_ev (f : Flag) (c : Option Chan) (x : PartAddr) (n : Nat) (s : State) :
    (raise f c x n s).ev = s.ev.occurrence f ⟨f.number, c, x, BitVec.ofNat 16 n, s.uptime⟩ := rfl

@[simp] theorem raise_view (f : Flag) (c : Option Chan) (x : PartAddr) (n : Nat) (s : State) (d : Chan) :
    (raise f c x n s).view d = s.view d := rfl

@[simp] theorem raise_port (f : Flag) (c : Option Chan) (x : PartAddr) (n : Nat) (s : State) (d : Chan) :
    (raise f c x n s).port d = s.port d := rfl

@[simp] theorem raise_same (f : Flag) (c : Option Chan) (x : PartAddr) (n : Nat) (s : State) :
    (raise f c x n s).views = s.views ∧ (raise f c x n s).ports = s.ports ∧ (raise f c x n s).map = s.map
      ∧ (raise f c x n s).arb = s.arb ∧ (raise f c x n s).pos = s.pos ∧ (raise f c x n s).drive = s.drive
      ∧ (raise f c x n s).relay = s.relay ∧ (raise f c x n s).ilock = s.ilock ∧ (raise f c x n s).mbox = s.mbox
      ∧ (raise f c x n s).watch = s.watch ∧ (raise f c x n s).line = s.line
      ∧ (raise f c x n s).warning = s.warning ∧ (raise f c x n s).uptime = s.uptime
      ∧ (raise f c x n s).free = s.free ∧ (raise f c x n s).pending = s.pending := by
  refine ⟨?_, ?_, ?_, ?_, ?_, ?_, ?_, ?_, ?_, ?_, ?_, ?_, ?_, ?_, ?_⟩ <;> rfl

end Sys2Proof.Machine
end

