-- ==== Sys2Proof/Laws/Events.lean ====
section
/-! SUPPORT. The event unit: what an occurrence, a take and a write to an enable do (R155 to R159), and `Occurs`, the
relation between the event unit before and after any operation that only raises events. -/

namespace Sys2Proof.Machine

theorem ChanEvent.bit_inj {x y : ChanEvent} (h : x.bit = y.bit) : x = y := by
  cases x <;> cases y <;> first | rfl | exact absurd h (by decide)

theorem SoleEvent.bit_inj {x y : SoleEvent} (h : x.bit = y.bit) : x = y := by
  cases x <;> cases y <;> first | rfl | exact absurd h (by decide)

theorem ChanEvent.mem_all (e : ChanEvent) : e ∈ ChanEvent.all := by cases e <;> decide

theorem SoleEvent.mem_all (e : SoleEvent) : e ∈ SoleEvent.all := by cases e <;> decide

theorem Flag.mem_all (f : Flag) : f ∈ Flag.all := by
  unfold Flag.all
  rcases f with ⟨c, e⟩ | e
  · cases c <;> simp [ChanEvent.mem_all]
  · simp [SoleEvent.mem_all]

/-- The contact is due exactly when some set flag has its alarm enable set (R158). -/
theorem EventUnit.alarmDue_iff (ev : EventUnit) :
    ev.alarmDue = true ↔ ∃ f : Flag, (ev.record f).isSome = true ∧ ev.alarmEnable.get f = true := by
  simp only [EventUnit.alarmDue, List.any_eq_true, Bool.and_eq_true]
  exact ⟨fun ⟨f, _, h⟩ => ⟨f, h⟩, fun ⟨f, h⟩ => ⟨f, f.mem_all, h⟩⟩

@[simp] theorem EventUnit.record_judged (ev : EventUnit) (f : Flag) : ev.judged.record f = ev.record f := by
  rcases f with ⟨c, e⟩ | e
  · cases c <;> rfl
  · rfl

@[simp] theorem EventUnit.judged_enables (ev : EventUnit) :
    ev.judged.recordEnable = ev.recordEnable ∧ ev.judged.alarmEnable = ev.alarmEnable := ⟨rfl, rfl⟩

@[simp] theorem EventUnit.judged_contact (ev : EventUnit) : ev.judged.contact = ev.alarmDue := rfl

@[simp] theorem EventUnit.alarmDue_judged (ev : EventUnit) : ev.judged.alarmDue = ev.alarmDue := by
  simp [EventUnit.alarmDue]

/-- A captured record stands behind its flag, and no other flag changes (R156). -/
theorem EventUnit.record_capture (ev : EventUnit) (f g : Flag) (r : FirstRecord) :
    (ev.capture f r).record g = if g = f then some r else ev.record g := by
  rcases f with ⟨c, e⟩ | e <;> rcases g with ⟨d, e'⟩ | e'
  · cases c <;> cases d <;> simp [EventUnit.capture, EventUnit.record, Vector.getElem_set]
    all_goals
      by_cases h : e' = e
      · simp [h]
      · have : ¬(e.bit : Nat) = e'.bit := fun hb => h (ChanEvent.bit_inj (Fin.ext hb.symm))
        simp [h, this]
  · cases c <;> simp [EventUnit.capture, EventUnit.record]
  · cases d <;> simp [EventUnit.capture, EventUnit.record]
  · simp only [EventUnit.capture, EventUnit.record, Flag.sole.injEq]
    by_cases h : e' = e
    · simp [h]
    · have : ¬(e.bit : Nat) = e'.bit := fun hb => h (SoleEvent.bit_inj (Fin.ext hb.symm))
      simp [h, this]

@[simp] theorem EventUnit.capture_enables (ev : EventUnit) (f : Flag) (r : FirstRecord) :
    (ev.capture f r).recordEnable = ev.recordEnable ∧ (ev.capture f r).alarmEnable = ev.alarmEnable := by
  rcases f with ⟨c, e⟩ | e
  · cases c <;> exact ⟨rfl, rfl⟩
  · exact ⟨rfl, rfl⟩

/-- The record behind each flag after an occurrence: taken where the flag was clear and its record enable set, the
first one kept otherwise (R155). -/
theorem EventUnit.record_occurrence (ev : EventUnit) (f g : Flag) (r : FirstRecord) :
    (ev.occurrence f r).record g =
      if g = f ∧ ev.recordEnable.get f = true ∧ ev.record f = none then some r else ev.record g := by
  unfold EventUnit.occurrence
  split
  · rename_i h
    simp only [Bool.and_eq_true, Option.isNone_iff_eq_none] at h
    simp [EventUnit.record_capture, h.1, h.2]
  · rename_i h
    simp only [Bool.and_eq_true, Option.isNone_iff_eq_none] at h
    simp [h]

@[simp] theorem EventUnit.occurrence_enables (ev : EventUnit) (f : Flag) (r : FirstRecord) :
    (ev.occurrence f r).recordEnable = ev.recordEnable ∧ (ev.occurrence f r).alarmEnable = ev.alarmEnable := by
  unfold EventUnit.occurrence
  split <;> simp

/-- An occurrence keeps the contact judged (R158). -/
theorem EventUnit.occurrence_contact (ev : EventUnit) (f : Flag) (r : FirstRecord)
    (h : ev.contact = ev.alarmDue) : (ev.occurrence f r).contact = (ev.occurrence f r).alarmDue := by
  unfold EventUnit.occurrence
  split
  · simp
  · exact h

/-- The event unit after some occurrences, in order: what every operation that only raises events does to it. -/
inductive Occurs (ev : EventUnit) : EventUnit → Prop where
  | none : Occurs ev ev
  | one (f : Flag) (r : FirstRecord) (ev' : EventUnit) : Occurs ev ev' → Occurs ev (ev'.occurrence f r)

theorem Occurs.trans {x y z : EventUnit} (h : Occurs x y) (h' : Occurs y z) : Occurs x z := by
  induction h' with
  | none => exact h
  | one f r ev' _ ih => exact .one f r ev' ih

theorem Occurs.of_eq {x y : EventUnit} (h : y = x) : Occurs x y := h ▸ .none

theorem Occurs.enables {x y : EventUnit} (h : Occurs x y) :
    y.recordEnable = x.recordEnable ∧ y.alarmEnable = x.alarmEnable := by
  induction h with
  | none => exact ⟨rfl, rfl⟩
  | one f r ev' _ ih => simpa using ih

/-- A flag that is set keeps its record (R155). -/
theorem Occurs.keeps {x y : EventUnit} (h : Occurs x y) {f : Flag} (hf : (x.record f).isSome = true) :
    y.record f = x.record f := by
  induction h with
  | none => rfl
  | one g r ev' _ ih =>
    rw [EventUnit.record_occurrence]
    split
    · rename_i hg
      obtain ⟨rfl, _, hn⟩ := hg
      rw [hn] at ih
      rw [← ih] at hf
      simp at hf
    · exact ih

/-- Occurrences keep the contact judged (R158). -/
theorem Occurs.contact {x y : EventUnit} (h : Occurs x y) (hx : x.contact = x.alarmDue) : y.contact = y.alarmDue := by
  induction h with
  | none => exact hx
  | one f r ev' _ ih => exact ev'.occurrence_contact f r ih

theorem occurs_raise (f : Flag) (c : Option Chan) (p : PartAddr) (n : Nat) (s : State) :
    Occurs s.ev (raise f c p n s).ev := .one _ _ _ .none

/-- A raised event is recorded with its detail where its flag was open. -/
theorem recorded_raise (f : Flag) (c : Option Chan) (p : PartAddr) (n : Nat) (s : State) (h : Open f s) :
    Recorded f n (raise f c p n s) := by
  simp [Recorded, EventUnit.record_occurrence, h.1, h.2]

/-- Later occurrences keep what has been recorded. -/
theorem Recorded.keep {f : Flag} {n : Nat} {s t : State} (h : Recorded f n s) (ho : Occurs s.ev t.ev) :
    Recorded f n t := by
  have hs : (s.ev.record f).isSome = true := by
    unfold Recorded at h
    cases hr : s.ev.record f <;> simp_all
  unfold Recorded at *
  rw [ho.keeps hs]
  exact h

/-- The records after a take of a flag word (R159). -/
theorem EventUnit.record_take (ev : EventUnit) (w : Nat) (f : Flag) :
    (ev.take w).record f =
      match f with
      | .chan .a _ => if w = 0 then none else ev.record f
      | .chan .b _ => if w = 1 then none else ev.record f
      | .sole _ => if w = 2 then none else ev.record f := by
  rcases w with _ | _ | _ | w <;> rcases f with ⟨c, e⟩ | e <;>
    first
      | (cases c <;> simp [EventUnit.take, EventUnit.record, EventUnit.judged])
      | simp [EventUnit.take, EventUnit.record, EventUnit.judged]

end Sys2Proof.Machine
end

