-- ==== Sys2Proof/Laws/Decides.lean ====
section
/-! SUPPORT. `Decides`: everything that a grant decision, and whatever it sets off at the arbiter, Positioner Control,
the drive port's order lines, the views and the deferred requests, can do (04, 05 5.2, R13, R104, R125). One lemma for
each operation of Ops, ArbiterOps and the deferral part of InterlockOps. -/

namespace Sys2Proof.Machine

/-- What operations at the grant level keep. -/
structure Decides (s t : State) : Prop where
  ports   : t.ports = s.ports
  map     : t.map = { s.map with xfer := t.map.xfer }
  drive   : t.drive = { s.drive with
    offered := t.drive.offered, strobeTicks := t.drive.strobeTicks, waiting := t.drive.waiting }
  relay   : t.relay = { s.relay with headPending := t.relay.headPending }
  ilock   : t.ilock = { s.ilock with deferred := t.ilock.deferred }
  mbox    : t.mbox = s.mbox
  watch   : t.watch = s.watch
  line    : t.line = s.line
  warning : t.warning = s.warning
  uptime  : t.uptime = s.uptime
  pending : t.pending = s.pending
  events  : Occurs s.ev t.ev
  view    : ∀ c, t.view c = { s.view c with
    st := (t.view c).st, idle := (t.view c).idle,
    causes := { (s.view c).causes with preempted := (t.view c).causes.preempted } }

theorem Decides.refl (s : State) : Decides s s :=
  ⟨rfl, rfl, rfl, rfl, rfl, rfl, rfl, rfl, rfl, rfl, rfl, .none, fun _ => rfl⟩

theorem Decides.trans {s t u : State} (h : Decides s t) (k : Decides t u) : Decides s u where
  ports := k.ports.trans h.ports
  map := by have a := k.map; rw [h.map] at a; exact a
  drive := by have a := k.drive; rw [h.drive] at a; exact a
  relay := by have a := k.relay; rw [h.relay] at a; exact a
  ilock := by have a := k.ilock; rw [h.ilock] at a; exact a
  mbox := k.mbox.trans h.mbox
  watch := k.watch.trans h.watch
  line := k.line.trans h.line
  warning := k.warning.trans h.warning
  uptime := k.uptime.trans h.uptime
  pending := k.pending.trans h.pending
  events := h.events.trans k.events
  view c := by have a := k.view c; rw [h.view c] at a; exact a

/-! ## Consequences -/

theorem Decides.gate {s t : State} (h : Decides s t) : t.relay.gate = s.relay.gate := by rw [h.relay]

theorem Decides.torn {s t : State} (h : Decides s t) : t.relay.torn = s.relay.torn := by rw [h.relay]

theorem Decides.list {s t : State} (h : Decides s t) : t.ilock.list = s.ilock.list := by rw [h.ilock]

theorem Decides.chain {s t : State} (h : Decides s t) : t.ilock.chain = s.ilock.chain := by rw [h.ilock]

theorem Decides.entriesOf {s t : State} (h : Decides s t) (c : Chan) : entriesOf t c = entriesOf s c := by
  unfold Machine.entriesOf; rw [h.list]

theorem Decides.gateUp {s t : State} (h : Decides s t) : gateUp t = gateUp s := by
  unfold Machine.gateUp; rw [h.drive]

theorem Decides.target {s t : State} (h : Decides s t) (c : Chan) : (t.view c).target = (s.view c).target := by
  rw [h.view c]

theorem Decides.notice {s t : State} (h : Decides s t) (c : Chan) :
    (t.view c).causes.mailboxNotice = (s.view c).causes.mailboxNotice := by rw [h.view c]

/-- The parts of the frame that a grant-level operation may touch. -/
theorem Decides.touches {s t : State} (h : Decides s t) : TouchesOnly Part.reached s t := by
  intro p hp
  have hport : ∀ c, t.port c = s.port c := fun c => by unfold State.port; rw [h.ports]
  cases p with
  | view c => cases c <;> simp [Part.reached] at hp
  | port c => exact hport c
  | mbox => exact h.mbox
  | watch => exact h.watch
  | line => exact h.line
  | warning => exact h.warning
  | uptime => exact h.uptime
  | pending => exact h.pending
  | map | arb | pos | drive | relay | ilock | ev => simp [Part.reached] at hp

/-! ## Leaves -/

/-- An update of the arbiter, of Positioner Control, of the transfer in hand, of the order lines, of the pending head
selection and of the deferred requests. -/
theorem decides_with (s : State) (a : Arbiter) (p : Positioner) (x : Xfer) (o : Option DriveOrder) (n : Nat)
    (w : List DriveOrder) (g : Option Sel) (d : Pair (Option Place)) (f : Nat) :
    Decides s { s with
      arb := a, pos := p, map := { s.map with xfer := x },
      drive := { s.drive with offered := o, strobeTicks := n, waiting := w },
      relay := { s.relay with headPending := g }, ilock := { s.ilock with deferred := d }, free := f } :=
  ⟨rfl, rfl, rfl, rfl, rfl, rfl, rfl, rfl, rfl, rfl, rfl, .none, fun _ => rfl⟩

theorem decides_arb (s : State) (a : Arbiter) : Decides s { s with arb := a } :=
  decides_with s a s.pos s.map.xfer s.drive.offered s.drive.strobeTicks s.drive.waiting s.relay.headPending
    s.ilock.deferred s.free

theorem decides_pos (s : State) (p : Positioner) : Decides s { s with pos := p } :=
  decides_with s s.arb p s.map.xfer s.drive.offered s.drive.strobeTicks s.drive.waiting s.relay.headPending
    s.ilock.deferred s.free

theorem decides_waiting (s : State) (w : List DriveOrder) : Decides s { s with drive := { s.drive with waiting := w } } :=
  decides_with s s.arb s.pos s.map.xfer s.drive.offered s.drive.strobeTicks w s.relay.headPending
    s.ilock.deferred s.free

theorem decides_head (s : State) (g : Option Sel) :
    Decides s { s with relay := { s.relay with headPending := g } } :=
  decides_with s s.arb s.pos s.map.xfer s.drive.offered s.drive.strobeTicks s.drive.waiting g s.ilock.deferred s.free

theorem decides_setXfer (x : Xfer) (s : State) : Decides s (setXfer x s) :=
  decides_with s s.arb s.pos x s.drive.offered s.drive.strobeTicks s.drive.waiting s.relay.headPending
    s.ilock.deferred s.free

theorem decides_setDeferred (c : Chan) (p : Option Place) (s : State) : Decides s (setDeferred c p s) :=
  decides_with s s.arb s.pos s.map.xfer s.drive.offered s.drive.strobeTicks s.drive.waiting s.relay.headPending _ s.free

theorem decides_raise (f : Flag) (c : Option Chan) (p : PartAddr) (n : Nat) (s : State) :
    Decides s (raise f c p n s) :=
  ⟨rfl, rfl, rfl, rfl, rfl, rfl, rfl, rfl, rfl, rfl, rfl, occurs_raise f c p n s, fun _ => rfl⟩

/-- A view set to another state, idle count and PREEMPTED cause. -/
theorem decides_setView (c : Chan) (st : ViewState) (idle : Nat) (b : Bool) (s : State) :
    Decides s (setView c { s.view c with st := st, idle := idle, causes := { (s.view c).causes with preempted := b } } s) :=
  ⟨rfl, rfl, rfl, rfl, rfl, rfl, rfl, rfl, rfl, rfl, rfl, .none, fun d => by by_cases h : d = c <;> simp [h]⟩

theorem decides_setViewState (c : Chan) (st : ViewState) (s : State) : Decides s (setViewState c st s) :=
  decides_setView c st (s.view c).idle (s.view c).causes.preempted s

/-! ## The drive port and Positioner Control -/

theorem offerNext_decides (s : State) : Decides s (offerNext s) := by
  unfold offerNext
  split
  · exact .refl s
  · split
    · exact .refl s
    · split
      · exact .refl s
      · exact decides_with s s.arb s.pos s.map.xfer _ _ _ s.relay.headPending s.ilock.deferred s.free

theorem requestOrder_decides (o : DriveOrder) (s : State) : Decides s (requestOrder o s) :=
  (decides_waiting s _).trans (offerNext_decides _)

theorem discardHeads_decides (i : HeadIssuer) (s : State) : Decides s (discardHeads i s) := decides_waiting s _

theorem startClearing_decides (g : Stage) (s : State) : Decides s (startClearing g s) :=
  (decides_pos s _).trans (requestOrder_decides _ _)

theorem startRecalibration_decides (g : Stage) (s : State) : Decides s (startRecalibration g s) :=
  (decides_pos s _).trans (requestOrder_decides _ _)

theorem attemptSeek_decides (n : Nat) (s : State) : Decides s (attemptSeek n s) :=
  (decides_pos s _).trans (requestOrder_decides _ _)

theorem clearThenRecalibrate_decides (g : Stage) (s : State) : Decides s (clearThenRecalibrate g s) := by
  unfold clearThenRecalibrate
  split
  · exact startClearing_decides g s
  · exact startRecalibration_decides g s

theorem beginSeek_decides (n : Nat) (s : State) : Decides s (beginSeek n s) := by
  unfold beginSeek
  split
  · exact clearThenRecalibrate_decides _ s
  · exact attemptSeek_decides n s

theorem askSeek_decides (n : Nat) (s : State) : Decides s (askSeek n s) := by
  unfold askSeek
  split
  · exact (decides_pos s _).trans (beginSeek_decides n _)
  · split
    · exact decides_pos s _
    · exact .refl s
  · split
    · exact decides_pos s _
    · exact .refl s
  · exact .refl s
  · exact .refl s

theorem askCalibration_decides (s : State) : Decides s (askCalibration s) := by
  unfold askCalibration
  split
  · exact (decides_pos s _).trans (clearThenRecalibrate_decides _ _)
  · exact .refl s

theorem beginSector_decides (v : Vol) (s : State) : Decides s (beginSector v s) := by
  unfold beginSector
  split
  · exact decides_setXfer _ s
  · exact (decides_setXfer _ s).trans (requestOrder_decides _ _)

theorem beginTransfer_decides (s : State) : Decides s (beginTransfer s) := by
  unfold beginTransfer
  split
  · exact .refl s
  · exact beginSector_decides _ s

/-! ## The relay's head selection -/

theorem askHead_decides (c : Chan) (s : State) : Decides s (askHead c s) := by
  unfold askHead
  simp only
  split
  · exact decides_with s s.arb s.pos s.map.xfer s.drive.offered s.drive.strobeTicks _ _ s.ilock.deferred s.free
  · split
    · exact decides_head s _
    · exact (decides_head s _).trans (requestOrder_decides _ _)

theorem headAtGrantStart_decides (c : Chan) (s : State) : Decides s (headAtGrantStart c s) := by
  unfold headAtGrantStart
  split
  · exact decides_head s _
  · exact askHead_decides c s

theorem headAtOrder_decides (c : Chan) (s : State) : Decides s (headAtOrder c s) := by
  unfold headAtOrder
  split
  · split
    · exact .refl s
    · exact askHead_decides c s
  · split
    · exact .refl s
    · exact askHead_decides c s

theorem headAtGrantEnd_decides (c : Chan) (s : State) : Decides s (headAtGrantEnd c s) :=
  (decides_head s _).trans (discardHeads_decides _ _)

/-! ## Grants -/

theorem enterOwned_decides (c : Chan) (s : State) : Decides s (enterOwned c s) :=
  ((decides_arb s _).trans (decides_setView c .positioned 0 (s.view c).causes.preempted _)).trans
    (headAtGrantStart_decides c _)

theorem seekFor_decides (n : Nat) (s : State) : Decides s (seekFor n s) :=
  (decides_arb s _).trans (askSeek_decides n _)

theorem grantTo_decides (c : Chan) (s : State) : Decides s (grantTo c s) := by
  unfold grantTo
  split
  · exact .refl s
  · simp only
    split
    · exact (decides_arb s _).trans (enterOwned_decides c _)
    · exact ((decides_arb s _).trans (decides_arb _ _)).trans (seekFor_decides _ _)

theorem grantInternal_decides (s : State) : Decides s (grantInternal s) := by
  unfold grantInternal
  simp only
  split
  · exact (decides_arb s _).trans (beginTransfer_decides _)
  · exact (decides_arb s _).trans (seekFor_decides _ _)

theorem grantByLimit_decides (c : Chan) (s : State) : Decides s (grantByLimit c s) :=
  (decides_raise _ _ _ _ s).trans (grantTo_decides c _)

theorem decideGrant_decides (s : State) : Decides s (decideGrant s) := by
  unfold decideGrant
  split
  · split
    · exact grantInternal_decides s
    · split
      · exact .refl s
      · exact grantTo_decides _ s
      · exact grantTo_decides _ s
      · split
        · exact grantByLimit_decides _ s
        · exact grantTo_decides _ s
  · exact .refl s

/-! ## Ends of grants and claims -/

theorem charge_decides (c : Chan) (s : State) : Decides s (charge c s) := decides_arb s _

theorem toFree_decides (s : State) : Decides s (toFree s) := (decides_arb s _).trans (decideGrant_decides _)

theorem viewGrantEnd_decides (c : Chan) (s : State) : Decides s (viewGrantEnd c s) := by
  unfold viewGrantEnd
  split
  · exact decides_setViewState c _ s
  · exact .refl s

theorem givePreempted_decides (c : Chan) (s : State) : Decides s (giveCause c .preempted s) := by
  unfold giveCause
  split
  · exact .refl s
  · exact decides_setView c (s.view c).st (s.view c).idle true s

theorem preempt_decides (c : Chan) (s : State) : Decides s (preempt c s) :=
  (givePreempted_decides c s).trans (decides_raise _ _ _ _ _)

theorem grantEnd_decides (c : Chan) (k : EndCause) (s : State) : Decides s (grantEnd c k s) := by
  unfold grantEnd
  simp only
  refine ((?_ : Decides s _).trans (headAtGrantEnd_decides c _)).trans (toFree_decides _)
  have h : Decides s (if k = .budget then preempt c (charge c s) else charge c s) := by
    split
    · exact (charge_decides c s).trans (preempt_decides c _)
    · exact charge_decides c s
  by_cases hk : k = .reseek ∨ k = .giveUp
  · rw [if_pos hk]; exact h
  · rw [if_neg hk]; exact h.trans (viewGrantEnd_decides c _)

theorem giveUp_decides (c : Chan) (s : State) : Decides s (giveUp c s) := by
  unfold giveUp
  split
  · split
    · exact (((charge_decides c s).trans (preempt_decides c _)).trans (headAtGrantEnd_decides c _)).trans
        (toFree_decides _)
    · exact grantEnd_decides c _ s
  · exact .refl s

theorem claimEnd_decides (c : Chan) (b : Bool) (s : State) : Decides s (claimEnd c b s) := by
  unfold claimEnd
  refine ((?_ : Decides s _).trans (headAtGrantEnd_decides c _)).trans (toFree_decides _)
  cases b
  · exact decides_pos s _
  · exact (charge_decides c s).trans (decides_pos _ _)

theorem judgeRelease_decides (s : State) : Decides s (judgeRelease s) := by
  unfold judgeRelease
  split
  · split
    · split
      · exact grantEnd_decides _ _ s
      · exact .refl s
    · exact .refl s
  · exact .refl s

/-! ## Requests -/

theorem reseek_decides (c : Chan) (p : Place) (s : State) : Decides s (reseek c p s) := by
  unfold reseek
  split
  · exact grantEnd_decides c _ s
  · exact (decides_arb s _).trans (seekFor_decides _ _)

theorem retargetHeld_decides (p : Place) (s : State) : Decides s (retargetHeld p s) := by
  unfold retargetHeld
  split
  · exact decides_with s _ _ s.map.xfer s.drive.offered s.drive.strobeTicks s.drive.waiting s.relay.headPending
      s.ilock.deferred s.free
  · exact .refl s

theorem requestArrives_decides (c : Chan) (p : Place) (s : State) : Decides s (requestArrives c p s) := by
  unfold requestArrives
  simp only
  split
  · exact (decides_arb s _).trans (decideGrant_decides _)
  · split
    · exact (decides_arb s _).trans (retargetHeld_decides p _)
    · exact decides_arb s _
  · split
    · exact (decides_arb s _).trans (reseek_decides c p _)
    · split
      · exact decides_arb s _
      · exact (decides_arb s _).trans (judgeRelease_decides _)
  · exact decides_arb s _
  · exact decides_arb s _

theorem removeRequest_decides (c : Chan) (s : State) : Decides s (removeRequest c s) := by
  unfold removeRequest
  simp only
  split
  · split
    · exact (decides_arb s _).trans (decides_arb _ _)
    · exact decides_arb s _
  · exact decides_arb s _

theorem withdrawRequest_decides (c : Chan) (s : State) : Decides s (withdrawRequest c s) := by
  unfold withdrawRequest
  simp only
  split
  · split
    · exact (removeRequest_decides c s).trans (claimEnd_decides _ _ _)
    · exact removeRequest_decides c s
  · exact removeRequest_decides c s

theorem internalArrives_decides (k : InternalKind) (s : State) : Decides s (internalArrives k s) := by
  unfold internalArrives
  simp only
  split
  · exact .refl s
  · split
    · exact (decides_arb s _).trans (decideGrant_decides _)
    · split
      · exact decides_arb s _
      · exact (decides_arb s _).trans (judgeRelease_decides _)
    · exact decides_arb s _
    · exact decides_arb s _
    · exact decides_arb s _

theorem internalEnds_decides (s : State) : Decides s (internalEnds s) := by
  unfold internalEnds
  exact (((decides_arb s _).trans (decides_setXfer .none _)).trans (discardHeads_decides .mapStore _)).trans
    (decideGrant_decides _)

/-! ## Deferral -/

theorem letThrough_decides (c : Chan) (s : State) : Decides s (letThrough c s) := by
  unfold letThrough
  simp only
  have h := (decides_setViewState c .requesting s).trans (decides_setDeferred c none _)
  split
  · exact h.trans (requestArrives_decides c _ _)
  · exact h

theorem releaseTest_decides (c : Chan) (s : State) : Decides s (releaseTest c s) := by
  unfold releaseTest
  split
  · split
    · exact decides_setDeferred c _ s
    · exact letThrough_decides c s
  · exact .refl s

end Sys2Proof.Machine
end

