-- ==== Sys2Proof/Laws/Frames.lean ====
section
/-! SUPPORT. `Moves`: which parts an operation may touch, with the event unit changed by occurrences alone. One lemma for
each operation of the interlocks, the views, the mailbox, the relay, Drive Watch and Positioner Control's outcomes. -/

namespace Sys2Proof.Machine

/-- Only these parts may be touched, and the event unit by occurrences alone. -/
structure Moves (touched : List Part) (s t : State) : Prop where
  frame  : TouchesOnly touched s t
  events : Occurs s.ev t.ev

theorem TouchesOnly.refl (l : List Part) (s : State) : TouchesOnly l s s := by
  intro p _; cases p <;> rfl

theorem Part.Same.trans {s t u : State} {p : Part} (h : p.Same s t) (k : p.Same t u) : p.Same s u := by
  cases p <;> exact Eq.trans k h

theorem Moves.refl (l : List Part) (s : State) : Moves l s s := ⟨.refl l s, .none⟩

theorem Moves.trans {l : List Part} {s t u : State} (h : Moves l s t) (k : Moves l t u) : Moves l s u :=
  ⟨fun p hp => (h.frame p hp).trans (k.frame p hp), h.events.trans k.events⟩

theorem Moves.mono {l m : List Part} {s t : State} (h : Moves l s t) (hlm : l ⊆ m) : Moves m s t :=
  ⟨fun p hp => h.frame p (fun hl => hp (hlm hl)), h.events⟩

theorem Decides.moves {s t : State} (h : Decides s t) : Moves Part.reached s t := ⟨h.touches, h.events⟩

/-- What the end of a gate may reach. -/
def Part.gated : List Part := .port .a :: .port .b :: .mbox :: Part.reached

/-- What any command of the ports, the drive, the supply or the clock may reach, but for the supply warning input. -/
def Part.wide : List Part := .watch :: Part.gated

theorem reached_sub_gated : Part.reached ⊆ Part.gated := by decide

theorem reached_sub_wide : Part.reached ⊆ Part.wide := by decide

theorem gated_sub_wide : Part.gated ⊆ Part.wide := by decide

theorem Moves.toGated {s t : State} (h : Moves Part.reached s t) : Moves Part.gated s t := h.mono reached_sub_gated

theorem Moves.toWide {s t : State} (h : Moves Part.reached s t) : Moves Part.wide s t := h.mono reached_sub_wide

theorem Moves.gatedToWide {s t : State} (h : Moves Part.gated s t) : Moves Part.wide s t := h.mono gated_sub_wide

/-! ## Leaves -/

theorem touches_view (c : Chan) (v : View) (s : State) : TouchesOnly [.view c] s (setView c v s) := by
  intro p hp
  cases p with
  | view d =>
    have : d ≠ c := by simpa using hp
    simp [Part.Same, this]
  | port _ | map | arb | pos | drive | relay | ilock | mbox | watch | ev | line | warning | uptime | pending => rfl

theorem touches_port (c : Chan) (x : Port) (s : State) : TouchesOnly [.port c] s (setPort c x s) := by
  intro p hp
  cases p with
  | port d =>
    have : d ≠ c := by simpa using hp
    simp [Part.Same, this]
  | view _ | map | arb | pos | drive | relay | ilock | mbox | watch | ev | line | warning | uptime | pending => rfl

theorem moves_view (c : Chan) (v : View) (s : State) : Moves Part.reached s (setView c v s) :=
  Moves.mono ⟨touches_view c v s, .none⟩ (by cases c <;> decide)

theorem moves_port (c : Chan) (x : Port) (s : State) : Moves Part.gated s (setPort c x s) :=
  Moves.mono ⟨touches_port c x s, .none⟩ (by cases c <;> decide)

/-- An update of the blocks a grant decision reaches, other than the views and the event unit. -/
theorem moves_with (s : State) (m : MapStore) (a : Arbiter) (p : Positioner) (d : DrivePort) (r : Relay)
    (i : Interlock) (f : Nat) :
    Moves Part.reached s
      { s with map := m, arb := a, pos := p, drive := d, relay := r, ilock := i, free := f } :=
  ⟨fun q hq => by cases q <;> first | rfl | simp [Part.reached] at hq, .none⟩

theorem moves_mbox (s : State) (m : Mailbox) : Moves Part.gated s { s with mbox := m } :=
  ⟨fun q hq => by cases q <;> first | rfl | simp [Part.gated] at hq, .none⟩

theorem moves_watch (s : State) (u : Watch) : Moves Part.wide s { s with watch := u } :=
  ⟨fun q hq => by cases q <;> first | rfl | simp [Part.wide] at hq, .none⟩

/-- The same with Drive Watch. -/
theorem moves_with_watch (s : State) (m : MapStore) (a : Arbiter) (p : Positioner) (d : DrivePort) (r : Relay)
    (i : Interlock) (u : Watch) (f : Nat) :
    Moves Part.wide s
      { s with map := m, arb := a, pos := p, drive := d, relay := r, ilock := i, watch := u, free := f } :=
  ⟨fun q hq => by cases q <;> first | rfl | simp [Part.wide, Part.gated, Part.reached] at hq, .none⟩

theorem moves_map (s : State) (m : MapStore) : Moves Part.reached s { s with map := m } :=
  moves_with s m s.arb s.pos s.drive s.relay s.ilock s.free

theorem moves_arb (s : State) (a : Arbiter) : Moves Part.reached s { s with arb := a } :=
  moves_with s s.map a s.pos s.drive s.relay s.ilock s.free

theorem moves_pos (s : State) (p : Positioner) : Moves Part.reached s { s with pos := p } :=
  moves_with s s.map s.arb p s.drive s.relay s.ilock s.free

theorem moves_drive (s : State) (d : DrivePort) : Moves Part.reached s { s with drive := d } :=
  moves_with s s.map s.arb s.pos d s.relay s.ilock s.free

theorem moves_relay (s : State) (r : Relay) : Moves Part.reached s { s with relay := r } :=
  moves_with s s.map s.arb s.pos s.drive r s.ilock s.free

theorem moves_ilock (s : State) (i : Interlock) : Moves Part.reached s { s with ilock := i } :=
  moves_with s s.map s.arb s.pos s.drive s.relay i s.free

theorem moves_free (s : State) (f : Nat) : Moves Part.reached s { s with free := f } :=
  moves_with s s.map s.arb s.pos s.drive s.relay s.ilock f

theorem moves_raise (f : Flag) (c : Option Chan) (p : PartAddr) (n : Nat) (s : State) :
    Moves Part.reached s (raise f c p n s) := (decides_raise f c p n s).moves

theorem moves_raiseFor (c : Chan) (e : ChanEvent) (p : PartAddr) (n : Nat) (s : State) :
    Moves Part.reached s (raiseFor c e p n s) := moves_raise _ _ _ _ _

theorem moves_raiseSole (e : SoleEvent) (p : PartAddr) (n : Nat) (s : State) :
    Moves Part.reached s (raiseSole e p n s) := moves_raise _ _ _ _ _

theorem giveCause_moves (c : Chan) (k : Cause) (s : State) : Moves Part.reached s (giveCause c k s) := by
  unfold giveCause
  split
  · exact .refl _ s
  · exact moves_view c _ s

theorem idleToZero_moves (c : Chan) (s : State) : Moves Part.reached s (idleToZero c s) := by
  unfold idleToZero
  split
  · exact .refl _ s
  · exact moves_view c _ s

theorem dropDriveGates_moves (s : State) : Moves Part.reached s (dropDriveGates s) :=
  (moves_drive s _).trans (offerNext_decides _).moves

/-! ## Interlocks -/

theorem removeEntries_moves (test : Entry → Bool) (s : State) : Moves Part.reached s (removeEntries test s) := by
  unfold removeEntries
  simp only
  split <;> split
  · exact ((moves_ilock s _).trans (releaseTest_decides .a _).moves).trans (releaseTest_decides .b _).moves
  · exact (moves_ilock s _).trans (releaseTest_decides .b _).moves
  · exact (moves_ilock s _).trans (releaseTest_decides .a _).moves
  · exact moves_ilock s _

/-- A removal takes exactly the entries that satisfy its test, whatever it releases (R125). -/
theorem removeEntries_list (test : Entry → Bool) (s : State) :
    (removeEntries test s).ilock.list = s.ilock.list.filter fun e => !test e := by
  unfold removeEntries
  simp only
  split <;> split <;> simp [(releaseTest_decides _ _).list, Interlock.remove]

/-- A chain stamp stays exactly while its holder keeps an entry (R118). -/
theorem removeEntries_chain (test : Entry → Bool) (s : State) (c : Chan) :
    (removeEntries test s).ilock.chain.get c =
      keepChain (s.ilock.list.filter fun e => !test e) c (s.ilock.chain.get c) := by
  unfold removeEntries
  simp only
  cases c <;> split <;> split <;> simp [(releaseTest_decides _ _).chain, Interlock.remove, Pair.get]

/-- The gate, the torn list, the mailbox and Drive Watch are no concern of a removal of entries. -/
theorem removeEntries_gate (test : Entry → Bool) (s : State) :
    (removeEntries test s).relay.gate = s.relay.gate ∧ (removeEntries test s).relay.torn = s.relay.torn := by
  unfold removeEntries
  simp only
  split <;> split <;> simp [(releaseTest_decides _ _).gate, (releaseTest_decides _ _).torn]

theorem removeChain_moves (c : Chan) (s : State) : Moves Part.reached s (removeChain c s) := removeEntries_moves _ s

theorem removeChain_entries (c : Chan) (s : State) : entriesOf (removeChain c s) c = [] := by
  simp [entriesOf, removeChain, removeEntries_list]

theorem overflowOldest_moves (c : Chan) (s : State) : Moves Part.reached s (overflowOldest c s) := by
  unfold overflowOldest
  split
  · exact .refl _ s
  · exact (moves_raiseFor c _ _ _ s).trans (removeEntries_moves _ _)

theorem setChain_moves (c : Chan) (t : Stamp) (s : State) : Moves Part.reached s (setChain c t s) := moves_ilock s _

theorem appendEntry_moves (c : Chan) (p : Place) (s : State) : Moves Part.reached s (appendEntry c p s) := by
  unfold appendEntry
  simp only
  split
  · exact (((moves_ilock s _).trans (decides_setViewState _ _ _).moves).trans (decides_setDeferred _ _ _).moves).trans
      (withdrawRequest_decides _ _).moves
  · exact moves_ilock s _

theorem fullSharedWrite_moves (c : Chan) (p : Place) (s : State) : Moves Part.reached s (fullSharedWrite c p s) := by
  unfold fullSharedWrite
  split
  · exact (moves_ilock s _).trans (setChain_moves c _ _)
  · split
    · split
      · exact .refl _ s
      · exact setChain_moves c _ s
    · split
      · exact (setChain_moves c _ s).trans (appendEntry_moves c p _)
      · exact ((overflowOldest_moves c s).trans (setChain_moves c _ _)).trans (appendEntry_moves c p _)

theorem ageOne_moves (e : Entry) (s : State) : Moves Part.reached s (ageOne e s) :=
  (moves_raise _ _ _ _ s).trans (removeEntries_moves _ _)

theorem foldl_moves {α : Type} (l : List Part) (f : State → α → State) (h : ∀ s x, Moves l s (f s x)) :
    ∀ (xs : List α) (s : State), Moves l s (xs.foldl f s)
  | [], s => .refl l s
  | x :: xs, s => (h s x).trans (foldl_moves l f h xs (f s x))

theorem ageOut_moves (test : Entry → Bool) (s : State) : Moves Part.reached s (ageOut test s) := by
  unfold ageOut
  split
  · exact .refl _ s
  · exact (moves_free s _).trans (foldl_moves _ _ (fun s e => ageOne_moves e s) _ _)

theorem endChain_moves (c : Chan) (s : State) : Moves Part.reached s (endChain c s) := by
  unfold endChain
  split
  · exact .refl _ s
  · split
    · exact removeChain_moves c s
    · exact .refl _ s

theorem pruneInterlocks_moves (s : State) : Moves Part.reached s (pruneInterlocks s) :=
  (((removeEntries_moves _ s).trans (ageOut_moves _ _)).trans (endChain_moves .a _)).trans (endChain_moves .b _)

/-- The order that the world gives a list is one of its orders (log 3). -/
theorem permuted_perm {α : Type} : ∀ (fuel k : Nat) (l : List α), (permuted fuel k l).Perm l
  | 0, _, l => by unfold permuted; exact .refl l
  | fuel + 1, k, [] => by unfold permuted; exact .refl _
  | fuel + 1, k, [x] => by unfold permuted; exact .refl _
  | fuel + 1, k, x :: y :: rest => by
    unfold permuted
    have hi : Config.pick k % (rest.length + 2) < (x :: y :: rest).length := by
      simpa using Nat.mod_lt (Config.pick k) (Nat.succ_pos (rest.length + 1))
    simp only
    rw [List.getElem?_eq_getElem hi, Option.getD_some]
    exact ((permuted_perm fuel (k + 1) _).cons _).trans (List.getElem_cons_eraseIdx_perm hi)

/-! ## Views -/

theorem leave_moves (c : Chan) (old : ViewState) (s : State) : Moves Part.reached s (leave c old s) := by
  unfold leave
  split
  · exact (withdrawRequest_decides c s).moves
  · exact (decides_setDeferred c _ s).moves
  · exact (giveUp_decides c s).moves
  · exact (giveUp_decides c s).moves
  all_goals exact .refl _ s

theorem standbySeekError_moves (c : Chan) (s : State) : Moves Part.reached s (standbySeekError c s) :=
  (moves_view c _ s).trans (leave_moves c _ _)

theorem yieldTo_moves (c : Chan) (s : State) : Moves Part.reached s (yieldTo c s) :=
  (moves_raiseFor c _ _ _ s).trans (removeChain_moves c _)

theorem deferRequest_moves (c : Chan) (s : State) : Moves Part.reached s (deferRequest c s) := by
  unfold deferRequest
  simp only
  have h := (moves_view c { s.view c with st := .deferred, wait := (s.view c).waitAtRequest } s).trans
    (decides_setDeferred c (s.view c).place _).moves
  split <;> split
  · exact (h.trans (withdrawRequest_decides c _).moves).trans (yieldTo_moves c _)
  · exact (h.trans (giveUp_decides c _).moves).trans (yieldTo_moves c _)
  · exact h.trans (yieldTo_moves c _)
  · exact h.trans (withdrawRequest_decides c _).moves
  · exact h.trans (giveUp_decides c _).moves
  · exact h

theorem makeRequest_moves (c : Chan) (s : State) : Moves Part.reached s (makeRequest c s) := by
  unfold makeRequest
  split
  · exact deferRequest_moves c s
  · exact (moves_view c _ s).trans (letThrough_decides c _).moves

theorem enterFaulted_moves (c : Chan) (k : FaultCause) (s : State) : Moves Part.reached s (enterFaulted c k s) := by
  unfold enterFaulted
  simp only
  split
  · exact .refl _ s
  · exact ((moves_view c _ s).trans (leave_moves c _ _)).trans (removeChain_moves c _)

theorem viewUnusable_moves (c : Chan) (s : State) : Moves Part.reached s (viewUnusable c s) := by
  unfold viewUnusable
  split
  · exact .refl _ s
  · exact ((moves_arb s _).trans (moves_view c _ _)).trans (decides_setDeferred c none _).moves

theorem viewsUnusable_moves (s : State) : Moves Part.reached s (viewsUnusable s) :=
  ((viewUnusable_moves .a s).trans (viewUnusable_moves .b _)).trans (removeEntries_moves _ _)

theorem viewsSpunDown_moves (s : State) : Moves Part.reached s (viewsSpunDown s) :=
  ((viewUnusable_moves .a s).trans (viewUnusable_moves .b _)).trans (removeEntries_moves _ _)

theorem viewUsable_moves (c : Chan) (s : State) : Moves Part.reached s (viewUsable c s) := by
  unfold viewUsable
  simp only
  split
  · exact moves_view c _ s
  · exact .refl _ s

theorem viewsUsable_moves (s : State) : Moves Part.reached s (viewsUsable s) :=
  (viewUsable_moves .a s).trans (viewUsable_moves .b _)

theorem viewAtActivation_moves (c : Chan) (s : State) : Moves Part.reached s (viewAtActivation c s) := by
  unfold viewAtActivation setTarget setViewState
  simp only
  split
  · exact moves_view c _ s
  · exact moves_view c _ s
  · split
    · split
      · exact moves_view c _ s
      · exact (moves_view c _ s).trans (makeRequest_moves c _)
    · exact standbySeekError_moves c s
  · split
    · split
      · exact moves_view c _ s
      · exact (moves_view c _ s).trans (makeRequest_moves c _)
    · exact standbySeekError_moves c s
  · split
    · split
      · exact moves_view c _ s
      · exact ((moves_view c _ s).trans (moves_view c _ _)).trans (leave_moves c _ _)
    · exact standbySeekError_moves c s
  · exact .refl _ s

theorem viewsAtActivation_moves (s : State) : Moves Part.reached s (viewsAtActivation s) := by
  unfold viewsAtActivation
  split
  · simp only
    split
    · exact ((moves_free s _).trans (viewAtActivation_moves .b _)).trans (viewAtActivation_moves .a _)
    · exact ((moves_free s _).trans (viewAtActivation_moves .a _)).trans (viewAtActivation_moves .b _)
  · exact (viewAtActivation_moves .a s).trans (viewAtActivation_moves .b _)

/-! ## The mailbox -/

theorem setNotice_moves (c : Chan) (l : List (Fin 24)) (s : State) : Moves Part.gated s (setNotice c l s) :=
  (moves_mbox s _).trans (moves_view c _ _).toGated

theorem mailboxWrite_moves (c : Chan) (n : Nat) (k : Fin 24) (r : Word) (s : State) :
    Moves Part.gated s (mailboxWrite c n k r s) := by
  unfold mailboxWrite
  split
  · exact .refl _ s
  · unfold postMessage
    split
    · exact .refl _ s
    · refine Moves.trans ?_ (setNotice_moves _ _ _)
      refine Moves.trans ?_ (moves_mbox _ _)
      unfold raiseGap
      split
      · split
        · exact .refl _ s
        · exact (moves_raiseFor c _ _ _ s).toGated
      · exact .refl _ s
  · exact (moves_raiseFor c _ _ _ s).toGated

theorem mailboxRead_moves (c : Chan) (k : Fin 24) (s : State) : Moves Part.gated s (mailboxRead c k s) := by
  unfold mailboxRead
  split
  · exact (moves_mbox s _).trans (setNotice_moves c _ _)
  · exact .refl _ s

theorem clearMailbox_moves (s : State) : Moves Part.gated s (clearMailbox s) :=
  ((moves_mbox s _).trans (setNotice_moves .a _ _)).trans (setNotice_moves .b _ _)

theorem mailboxAtActivation_moves (o : Option Nat) (s : State) : Moves Part.gated s (mailboxAtActivation o s) := by
  unfold mailboxAtActivation
  split
  · exact .refl _ s
  · exact clearMailbox_moves s

/-! ## Gates -/

theorem passGate_moves (c : Chan) (t : Target) (k : GateKind) (b : Bool) (s : State) :
    Moves Part.reached s (passGate c t k b s) := by
  unfold passGate setViewState
  exact (moves_with s _ _ _ _ _ _ s.free).trans (moves_view c _ _)

theorem suppressWrite_moves (c : Chan) (t : Target) (k : GateKind) (n : Nat) (s : State) :
    Moves Part.reached s (suppressWrite c t k n s) := by
  unfold suppressWrite
  simp only
  split
  · exact (moves_raiseFor c _ _ _ s).trans (enterFaulted_moves c _ _)
  · exact (moves_raiseFor c _ _ _ s).trans (enterFaulted_moves c _ _)

theorem headBy_iff (i : HeadIssuer) (o : DriveOrder) : o.headBy i = true ↔ ∃ sel, o = .head sel i := by
  cases o <;> simp [DriveOrder.headBy]

/-- When a HEAD order of the relay's for a view awaits its acknowledgement (R32). -/
theorem headAwaited_iff (s : State) (c : Chan) : headAwaited s c = true ↔ HeadAwaited s c := by
  simp only [headAwaited, HeadAwaited, OrderAsked, Bool.or_eq_true, Option.any_eq_true, List.any_eq_true, headBy_iff]
  constructor
  · rintro (⟨o, h, sel, rfl⟩ | ⟨o, h, sel, rfl⟩)
    · exact ⟨sel, .inl h⟩
    · exact ⟨sel, .inr h⟩
  · rintro ⟨sel, h | h⟩
    · exact .inl ⟨_, h, sel, rfl⟩
    · exact .inr ⟨_, h, sel, rfl⟩

/-- When a gate of a channel is held (R32, R105). -/
theorem gateHeld_iff (s : State) (c : Chan) :
    gateHeld s c = true ↔
      s.watch.st = .supplyHold ∨ s.relay.headPending.isSome = true ∨ HeadAwaited s c := by
  simp only [gateHeld, Bool.or_eq_true, decide_eq_true_eq, headAwaited_iff, or_assoc]

/-- A held gate changes nothing (R32). -/
theorem handGate_held {c : Chan} {s : State} (l : GateLine) (us : Nat) (h : gateHeld s c = true) :
    handGate c l us s = s := by
  simp [handGate, h]

theorem handGate_moves (c : Chan) (l : GateLine) (us : Nat) (s : State) :
    Moves Part.reached s (handGate c l us s) := by
  unfold handGate
  split
  · exact .refl _ s
  · split
    · exact .refl _ s
    · simp only
      split
      · exact passGate_moves c _ _ _ s
      · split
        · exact suppressWrite_moves c _ _ _ s
        · exact passGate_moves c _ _ _ s

theorem mendSector_moves (x : Addr) (s : State) : Moves Part.reached s (mendSector x s) := moves_relay s _

theorem addTorn_moves (e : TornEntry) (s : State) : Moves Part.reached s (addTorn e s) := by
  unfold addTorn setTorn
  simp only
  split
  · split
    · exact (moves_raiseSole _ _ _ s).trans (moves_relay _ _)
    · exact moves_relay s _
  · exact moves_relay s _

theorem tearWrite_moves (g : GateRecord) (k : TearCause) (s : State) : Moves Part.reached s (tearWrite g k s) := by
  unfold tearWrite
  simp only
  have h := (addTorn_moves ⟨g.addr, .chan g.chan, k, s.uptime⟩ s).trans
    (moves_raiseFor g.chan .tornSector g.addr.whole (detailE7 k g.words) _)
  split
  · exact h.trans (giveCause_moves _ _ _)
  · exact h

theorem judgeGate_moves (g : GateRecord) (k : TearCause) (s : State) : Moves Part.reached s (judgeGate g k s) := by
  unfold judgeGate
  split
  · exact .refl _ s
  · split
    · exact mendSector_moves _ s
    · exact tearWrite_moves g k s

theorem reportInterlock_moves (g : GateRecord) (s : State) : Moves Part.reached s (reportInterlock g s) := by
  unfold reportInterlock
  split
  · exact fullSharedWrite_moves _ _ s
  · exact .refl _ s

theorem reportMailbox_moves (g : GateRecord) (s : State) : Moves Part.gated s (reportMailbox g s) := by
  unfold reportMailbox
  split
  · split
    · split
      · exact .refl _ s
      · exact mailboxRead_moves _ _ s
    · split
      · exact mailboxWrite_moves _ _ _ _ s
      · exact .refl _ s
  · exact .refl _ s

theorem relayData_moves (g : GateRecord) (w : Carried) (s : State) : Moves Part.gated s (relayData g w s) := by
  unfold relayData
  split
  · exact moves_port _ _ s
  · exact (moves_drive s _).toGated

theorem endGate_moves (k : TearCause) (w : Carried) (s : State) : Moves Part.gated s (endGate k w s) := by
  unfold endGate
  split
  · exact .refl _ s
  · simp only
    exact (((((moves_relay s _).toGated.trans (relayData_moves _ w _)).trans (dropDriveGates_moves _).toGated).trans
      (judgeGate_moves _ k _).toGated).trans (reportInterlock_moves _ _).toGated).trans (reportMailbox_moves _ _)

theorem backToPositioned_moves (c : Chan) (s : State) : Moves Part.reached s (backToPositioned c s) := by
  unfold backToPositioned
  split
  · simp only
    split
    · exact (decides_setViewState c _ s).moves.trans (grantEnd_decides c _ _).moves
    · exact (decides_setViewState c _ s).moves
  · exact .refl _ s

theorem endGatePositioned_moves (k : TearCause) (w : Carried) (s : State) :
    Moves Part.gated s (endGatePositioned k w s) := by
  unfold endGatePositioned
  split
  · exact .refl _ s
  · exact ((endGate_moves k w s).trans (idleToZero_moves _ _).toGated).trans (backToPositioned_moves _ _).toGated

theorem overrun_moves (w : Carried) (s : State) : Moves Part.gated s (overrun w s) := by
  unfold overrun
  split
  · exact .refl _ s
  · exact ((endGate_moves _ w s).trans (moves_raiseFor _ _ _ _ _).toGated).trans (enterFaulted_moves _ _ _).toGated

theorem orderDuringGate_moves (c : Chan) (k : Nat) (w : Carried) (s : State) :
    Moves Part.gated s (orderDuringGate c k w s) := by
  unfold orderDuringGate
  split
  · exact .refl _ s
  · exact ((endGate_moves _ w s).trans (enterFaulted_moves _ _ _).toGated).trans (moves_raiseFor _ _ _ _ _).toGated

theorem showInternalWrite_moves (v : Vol) (w : Carried) (s : State) :
    Moves Part.reached s (showInternalWrite v w s) := by
  unfold showInternalWrite
  split
  · exact moves_drive s _
  · exact .refl _ s

theorem cutInternal_moves (k : TearCause) (w : Carried) (s : State) : Moves Part.reached s (cutInternal k w s) := by
  unfold cutInternal
  split
  · rename_i v _
    have h := (showInternalWrite_moves v w s).trans (dropDriveGates_moves _)
    simp only
    split
    · exact h.trans (mendSector_moves _ _)
    · exact h.trans (addTorn_moves _ _)
  · exact dropDriveGates_moves s
  all_goals exact .refl _ s

/-! ## Drive Watch -/

theorem setWatchState_moves (k : WatchState) (s : State) : Moves Part.wide s (setWatchState k s) := moves_watch s _

theorem commitFails_moves (n : Nat) (p : PartAddr) (s : State) : Moves Part.reached s (commitFails n p s) := by
  unfold commitFails
  split
  · exact (moves_map s _).trans (moves_raiseSole _ _ _ _)
  · exact .refl _ s

theorem runningCommitFails_moves (b : Bool) (w : Carried) (s : State) :
    Moves Part.reached s (runningCommitFails b w s) := by
  unfold runningCommitFails
  simp only
  split
  · split
    · exact commitFails_moves _ _ s
    · split
      · exact commitFails_moves _ _ s
      · exact (moves_free s _).trans (commitFails_moves _ _ _)
  · exact (moves_free s _).trans (commitFails_moves _ _ _)
  · exact (moves_free s _).trans (commitFails_moves _ _ _)
  · exact (moves_free s _).trans (commitFails_moves _ _ _)
  all_goals exact commitFails_moves _ _ s

theorem removedCommitFails_moves (w : Carried) (s : State) : Moves Part.reached s (removedCommitFails w s) := by
  unfold removedCommitFails
  split
  · exact runningCommitFails_moves _ w s
  · split
    · exact commitFails_moves _ _ s
    · exact .refl _ s

theorem emptyQueue_moves (k : TearCause) (w : Carried) (s : State) : Moves Part.reached s (emptyQueue k w s) :=
  ((cutInternal_moves k w s).trans (removedCommitFails_moves w _)).trans (moves_with _ _ _ _ _ _ _ _)

theorem haltArbiter_moves (s : State) : Moves Part.reached s (haltArbiter s) := by
  unfold haltArbiter
  exact (((moves_with s _ _ _ _ _ _ s.free).trans (discardHeads_decides _ _).moves).trans
    (discardHeads_decides _ _).moves).trans (discardHeads_decides _ _).moves

theorem haltPositioner_moves (s : State) : Moves Part.reached s (haltPositioner s) := by
  unfold haltPositioner
  exact (moves_with s _ _ _ _ _ _ s.free).trans (offerNext_decides _).moves

theorem halt_moves (s : State) : Moves Part.reached s (halt s) :=
  (haltArbiter_moves s).trans (haltPositioner_moves _)

theorem resume_moves (s : State) : Moves Part.reached s (resume s) := by
  unfold resume
  split
  · exact (moves_arb s _).trans (decideGrant_decides _).moves
  · exact .refl _ s

theorem refreshStaged_moves (s : State) : Moves Part.wide s (refreshStaged s) :=
  moves_with_watch s _ _ _ _ _ _ _ s.free

theorem enterRunning_moves (s : State) : Moves Part.wide s (enterRunning s) := by
  unfold enterRunning
  simp only
  split
  · exact ((moves_watch s _).trans (refreshStaged_moves _)).trans (viewsUsable_moves _).toWide
  · exact (moves_watch s _).trans (refreshStaged_moves _)

theorem compareCartridge_moves (r : ReadResult) (s : State) : Moves Part.reached s (compareCartridge r s) := by
  unfold compareCartridge
  split
  · exact ((moves_raiseSole _ _ _ s).trans (giveCause_moves _ _ _)).trans (giveCause_moves _ _ _)
  · exact .refl _ s

theorem storeLabel_moves (r : ReadResult) (s : State) : Moves Part.reached s (storeLabel r s) := by
  unfold storeLabel
  split
  · exact moves_map s _
  · exact (moves_map s _).trans (moves_raiseSole _ _ _ _)

theorem labelReadOutcome_moves (r : ReadResult) (s : State) : Moves Part.wide s (labelReadOutcome r s) := by
  unfold labelReadOutcome
  simp only
  have h := ((compareCartridge_moves r s).trans (storeLabel_moves r _)).toWide
  split
  · exact (h.trans (moves_watch _ _)).trans (enterRunning_moves _)
  · exact h.trans (moves_watch _ _)

theorem enterReadingLabel_moves (s : State) : Moves Part.wide s (enterReadingLabel s) := by
  unfold enterReadingLabel
  simp only
  split
  · exact (moves_watch s _).trans (labelReadOutcome_moves _ _)
  · exact (moves_watch s _).trans (internalArrives_decides _ _).moves.toWide

theorem storeMap_moves (r : ReadResult) (s : State) : Moves Part.reached s (storeMap r s) := by
  unfold storeMap
  split
  · exact moves_map s _
  · exact (moves_map s _).trans (moves_raiseSole _ _ _ _)

theorem mapReadOutcome_moves (r : ReadResult) (s : State) : Moves Part.wide s (mapReadOutcome r s) := by
  unfold mapReadOutcome
  simp only
  have h := (storeMap_moves r s).toWide
  split
  · exact (h.trans (moves_watch _ _)).trans (enterReadingLabel_moves _)
  · exact h.trans (moves_watch _ _)

theorem enterReadingMap_moves (s : State) : Moves Part.wide s (enterReadingMap s) := by
  unfold enterReadingMap
  simp only
  split
  · exact (moves_watch s _).trans (mapReadOutcome_moves _ _)
  · exact (moves_watch s _).trans (internalArrives_decides _ _).moves.toWide

theorem nextStep_moves (s : State) : Moves Part.wide s (nextStep s) := by
  unfold nextStep
  split
  · exact enterReadingMap_moves s
  · split
    · exact enterReadingLabel_moves s
    · exact enterRunning_moves s

theorem watchCalibrated_moves (s : State) : Moves Part.wide s (watchCalibrated s) := by
  unfold watchCalibrated
  split
  · exact (resume_moves s).toWide.trans (nextStep_moves _)
  · exact .refl _ s

theorem enterCalibrating_moves (s : State) : Moves Part.wide s (enterCalibrating s) :=
  (setWatchState_moves _ s).trans (askCalibration_decides _).moves.toWide

theorem markStopped_moves (s : State) : Moves Part.wide s (markStopped s) := by
  unfold markStopped
  exact moves_with_watch s _ _ _ _ _ _ _ s.free

theorem enterSpunDown_moves (s : State) : Moves Part.wide s (enterSpunDown s) := by
  unfold enterSpunDown
  split
  · exact moves_watch s _
  · exact setWatchState_moves _ s

theorem spinDown_moves (w : Carried) (s : State) : Moves Part.wide s (spinDown w s) :=
  (((((endGate_moves _ w s).gatedToWide.trans (emptyQueue_moves _ w _).toWide).trans (markStopped_moves _)).trans
    (halt_moves _).toWide).trans (viewsSpunDown_moves _).toWide).trans (enterSpunDown_moves _)

theorem holdHalt_moves (s : State) : Moves Part.wide s (holdHalt s) :=
  ((moves_watch s _).trans (halt_moves _).toWide).trans (viewsUnusable_moves _).toWide

theorem reportGateEnd_moves (s : State) : Moves Part.wide s (reportGateEnd s) := by
  unfold reportGateEnd
  split
  · exact holdHalt_moves s
  · exact .refl _ s

theorem enterHold_moves (w : Carried) (s : State) : Moves Part.wide s (enterHold w s) := by
  unfold enterHold
  simp only
  split <;> split
  · exact ((moves_watch s _).trans (endGatePositioned_moves _ w _).gatedToWide).trans (moves_watch _ _)
  · exact ((moves_watch s _).trans (endGatePositioned_moves _ w _).gatedToWide).trans (holdHalt_moves _)
  · exact (moves_watch s _).trans (moves_watch _ _)
  · exact (moves_watch s _).trans (holdHalt_moves _)

theorem fallInHold_moves (w : Carried) (s : State) : Moves Part.wide s (fallInHold w s) := by
  unfold fallInHold
  simp only
  have h := (endGate_moves .driveDropped w s).gatedToWide.trans (emptyQueue_moves .driveDropped w _).toWide
  split
  · exact (((h.trans (holdHalt_moves _)).trans (moves_watch _ _)).trans (markStopped_moves _)).trans
      (viewsSpunDown_moves _).toWide
  · exact ((h.trans (moves_watch _ _)).trans (markStopped_moves _)).trans (viewsSpunDown_moves _).toWide

theorem enterDriveFault_moves (s : State) : Moves Part.wide s (enterDriveFault s) := by
  unfold enterDriveFault
  simp only
  exact (((((moves_with s _ _ _ _ _ _ _).toWide.trans (endGate_moves _ _ _).gatedToWide).trans
    (emptyQueue_moves _ _ _).toWide).trans (setWatchState_moves _ _)).trans (halt_moves _).toWide).trans
    (viewsUnusable_moves _).toWide

theorem restartReading_moves (w : Carried) (s : State) : Moves Part.wide s (restartReading w s) :=
  ((emptyQueue_moves _ w s).toWide.trans (halt_moves _).toWide).trans (enterCalibrating_moves _)

theorem installImages_moves (imgs : CommitImages) (s : State) : Moves Part.reached s (installImages imgs s) :=
  moves_map s _

theorem copyStaged_moves (s : State) : Moves Part.reached s (copyStaged s) := moves_map s _

theorem activate_moves (imgs : CommitImages) (s : State) : Moves Part.gated s (activate imgs s) := by
  unfold activate
  simp only
  have h1 := ((installImages_moves imgs s).trans (pruneInterlocks_moves _)).trans (viewsAtActivation_moves _)
  have h2 := h1.toGated.trans (mailboxAtActivation_moves s.map.mailboxCylinder _)
  have h3 := h2.trans ((giveCause_moves .a .mapChanged _).trans (giveCause_moves .b .mapChanged _)).toGated
  have h4 := h3.trans (judgeRelease_decides _).moves.toGated
  have h5 := h4.trans (copyStaged_moves _).toGated
  split
  · exact (h5.trans (moves_raiseSole _ _ _ _).toGated).trans (viewsUsable_moves _).toGated
  · exact h5.trans (moves_raiseSole _ _ _ _).toGated

end Sys2Proof.Machine
end

