-- ==== Sys2Proof/Laws/Commands.lean ====
section
/-! SUPPORT. What each command may touch: one lemma for each meaning that reaches the blocks of the part, the lemma that
every command answers a next state, and what a halt leaves. -/

namespace Sys2Proof.Machine

/-! ## Orders, halts -/

/-- An order that is requested stands at the drive port, offered or waiting (R13). -/
theorem requestOrder_asked (o : DriveOrder) (s : State) : OrderAsked o (requestOrder o s) := by
  unfold OrderAsked requestOrder offerNext
  simp only
  split
  · simp
  · cases hw : s.drive.waiting with
    | nil =>
      simp only [List.nil_append]
      split <;> simp_all
    | cons x xs =>
      simp only [List.cons_append]
      split <;> simp

/-- The order lines aside, requesting an order changes nothing. -/
theorem requestOrder_same (o : DriveOrder) (s : State) :
    (requestOrder o s).arb = s.arb ∧ (requestOrder o s).pos = s.pos ∧ (requestOrder o s).map = s.map
      ∧ (requestOrder o s).views = s.views ∧ (requestOrder o s).ev = s.ev ∧ (requestOrder o s).relay = s.relay
      ∧ (requestOrder o s).ilock = s.ilock := by
  unfold requestOrder offerNext
  simp only
  split
  · simp
  · split
    · simp
    · split <;> simp

theorem offerNext_same (s : State) :
    (offerNext s).arb = s.arb ∧ (offerNext s).pos = s.pos ∧ (offerNext s).map = s.map
      ∧ (offerNext s).views = s.views ∧ (offerNext s).ev = s.ev ∧ (offerNext s).relay = s.relay
      ∧ (offerNext s).ilock = s.ilock := by
  unfold offerNext
  split
  · simp
  · split
    · simp
    · split <;> simp

/-- What a halt leaves of the arbiter and of Positioner Control (R83, R101). -/
theorem halt_arb (s : State) :
    (halt s).arb = { s.arb with st := .halted, awaited := none, stamp := none, held := 0, clock := 0,
                                releasePending := false } := by
  unfold halt haltPositioner
  rw [(offerNext_same _).1]
  rfl

theorem halt_pos (s : State) :
    (halt s).pos = { s.pos with cyl := none, lastSel := none, st := .halted, request := none, held := none,
                                retry := false, ticks := none } := by
  unfold halt haltPositioner
  rw [(offerNext_same _).2.1]
  rfl

/-! ## Outcomes of Positioner Control -/

theorem arbiterReached_moves (n : Nat) (s : State) : Moves Part.wide s (arbiterReached n s) := by
  unfold arbiterReached
  split
  · split
    · exact (claimEnd_decides _ _ s).moves.toWide
    · split
      · exact (enterOwned_decides _ s).moves.toWide
      · exact (seekFor_decides _ s).moves.toWide
  · exact ((moves_arb s _).trans (beginTransfer_decides _).moves).toWide
  all_goals exact .refl _ s

theorem internalSeekFailed_moves (s : State) : Moves Part.wide s (internalSeekFailed s) := by
  unfold internalSeekFailed
  split
  · exact (mapReadOutcome_moves _ s).trans (internalEnds_decides _).moves.toWide
  · exact (labelReadOutcome_moves _ s).trans (internalEnds_decides _).moves.toWide
  · exact ((commitFails_moves _ _ s).trans (internalEnds_decides _).moves).toWide
  · exact (internalEnds_decides s).moves.toWide

theorem claimFailed_moves (c : Chan) (s : State) : Moves Part.reached s (claimFailed c s) :=
  ((moves_view c _ s).trans (removeRequest_decides c _).moves).trans (claimEnd_decides c _ _).moves

theorem arbiterFailed_moves (n : Nat) (s : State) : Moves Part.wide s (arbiterFailed n s) := by
  unfold arbiterFailed
  split
  · split
    · exact (claimEnd_decides _ _ s).moves.toWide
    · split
      · exact (claimFailed_moves _ s).toWide
      · exact (seekFor_decides _ s).moves.toWide
  · exact internalSeekFailed_moves s
  all_goals exact .refl _ s

theorem seekReached_moves (n : Nat) (s : State) : Moves Part.wide s (seekReached n s) :=
  (moves_pos s _).toWide.trans (arbiterReached_moves n _)

theorem raiseAttempt_moves (o : SeekOutcome) (s : State) : Moves Part.reached s (raiseAttempt o s) := by
  unfold raiseAttempt
  simp only
  split <;> split
  · exact (moves_raiseSole _ _ _ s).trans (moves_raiseSole _ _ _ _)
  · exact moves_raiseSole _ _ _ s
  · exact moves_raiseSole _ _ _ s
  · exact .refl _ s

theorem attemptFailed_moves (o : SeekOutcome) (s : State) : Moves Part.reached s (attemptFailed o s) := by
  unfold attemptFailed
  exact ((raiseAttempt_moves o s).trans (moves_pos _ _)).trans (startClearing_decides _ _).moves

theorem contradictory_moves (n : Nat) (s : State) : Moves Part.wide s (contradictory n s) :=
  (moves_raiseSole _ _ _ s).toWide.trans (enterDriveFault_moves _)

theorem stepFailed_moves (b : Bool) (k : StepCause) (s : State) : Moves Part.wide s (stepFailed b k s) :=
  (moves_raiseSole _ _ _ s).toWide.trans (enterDriveFault_moves _)

theorem seekFromZero_moves (n : Nat) (s : State) : Moves Part.wide s (seekFromZero n s) := by
  unfold seekFromZero
  split
  · exact seekReached_moves 0 s
  · exact (attemptSeek_decides n s).moves.toWide

theorem takeHeld_moves (s : State) : Moves Part.wide s (takeHeld s) := by
  unfold takeHeld
  split
  · exact .refl _ s
  · simp only
    split
    · exact ((moves_pos s _).trans (startClearing_decides _ _).moves).toWide
    · exact (moves_pos s _).toWide.trans (seekFromZero_moves _ _)

theorem closingSucceeded_moves (n : Nat) (s : State) : Moves Part.wide s (closingSucceeded n s) :=
  (moves_pos s _).toWide.trans (arbiterFailed_moves n _)

theorem recalibrated_moves (s : State) : Moves Part.wide s (recalibrated s) := by
  unfold recalibrated
  simp only
  have h := (moves_pos s { s.pos with cyl := some 0, st := .idle, ticks := none }).toWide
  split
  · exact (h.trans (moves_pos _ _).toWide).trans (watchCalibrated_moves _)
  · exact h.trans (closingSucceeded_moves _ _)
  · exact (h.trans (moves_pos _ _).toWide).trans (seekFromZero_moves _ _)
  · exact h.trans (seekFromZero_moves _ _)
  · exact h.trans (seekFromZero_moves _ _)
  · exact h.trans (takeHeld_moves _)

theorem cutAtFault_moves (w : Carried) (s : State) : Moves Part.gated s (cutAtFault w s) := by
  unfold cutAtFault
  split
  · simp only
    split
    · exact (endGate_moves _ w s).trans (decides_setViewState _ _ _).moves.toGated
    · exact endGate_moves _ w s
  · exact .refl _ s

theorem claimAtFault_moves (c : Chan) (k : ClaimKind) (s : State) : Moves Part.reached s (claimAtFault c k s) := by
  unfold claimAtFault
  split
  · exact moves_with s s.map _ _ s.drive s.relay s.ilock s.free
  · exact (claimEnd_decides c _ s).moves

theorem endAtFault_moves (s : State) : Moves Part.reached s (endAtFault s) := by
  unfold endAtFault
  split
  · exact (grantEnd_decides _ _ s).moves
  · exact (internalEnds_decides s).moves
  · exact claimAtFault_moves _ _ s
  all_goals exact .refl _ s

theorem commitAtFault_moves (w : Carried) (s : State) : Moves Part.reached s (commitAtFault w s) := by
  unfold commitAtFault
  split
  · exact runningCommitFails_moves _ w s
  · exact .refl _ s

theorem faultWhileRunning_moves (w : Carried) (s : State) : Moves Part.gated s (faultWhileRunning w s) := by
  unfold faultWhileRunning
  exact (((((cutAtFault_moves w s).trans (cutInternal_moves _ w _).toGated).trans
    (commitAtFault_moves w _).toGated).trans (moves_pos _ _).toGated).trans
    (startClearing_decides _ _).moves.toGated).trans (endAtFault_moves _).toGated

theorem positionLost_moves (w : Carried) (s : State) : Moves Part.wide s (positionLost w s) := by
  unfold positionLost
  split
  · exact .refl _ s
  · split
    · unfold unbiddenChange
      exact ((moves_raiseSole _ _ _ s).toGated.trans (faultWhileRunning_moves w _)).gatedToWide
    · split
      · exact restartReading_moves w s
      · exact .refl _ s

theorem headWithdrawn_moves (w : Carried) (s : State) : Moves Part.wide s (headWithdrawn w s) := by
  unfold headWithdrawn
  split
  · exact ((moves_drive s _).toGated.trans (faultWhileRunning_moves w (discardSteps s))).gatedToWide
  · split
    · exact restartReading_moves w s
    · exact .refl _ s

theorem orderFailed_moves (o : DriveOrder) (w : Carried) (s : State) : Moves Part.wide s (orderFailed o w s) := by
  unfold orderFailed
  split
  · split
    · exact (attemptFailed_moves _ s).toWide
    · exact .refl _ s
  · split
    · exact stepFailed_moves _ _ s
    · exact .refl _ s
  · split
    · exact stepFailed_moves _ _ s
    · exact .refl _ s
  · exact headWithdrawn_moves w s

theorem orderAcknowledged_moves (o : DriveOrder) (s : State) : Moves Part.reached s (orderAcknowledged o s) := by
  unfold orderAcknowledged
  split
  · exact moves_pos s _
  · simp only
    split
    · exact (moves_pos s _).trans (startRecalibration_decides _ _).moves
    · exact moves_pos s _
  · exact moves_pos s _
  · rename_i sel issuer
    simp only
    have h : ∀ t : State, Moves Part.reached t (clearPending sel issuer t) := fun t => by
      unfold clearPending
      split
      · exact moves_relay t _
      · exact .refl _ t
    have k := (moves_with s s.map s.arb { s.pos with lastSel := some sel }
      (setProt sel.vol s.drive.writeProtected s.drive) s.relay s.ilock s.free).trans (h _)
    split
    · refine k.trans ?_
      unfold headForTransfer
      split
      · split
        · exact (decides_setXfer _ _).moves
        · exact .refl _ _
      · exact .refl _ _
    · exact k

/-! ## Orders at a port -/

theorem orderArrives_moves (c : Chan) (b : Bool) (f : State → State) (h : ∀ t, Moves Part.wide t (f t)) (s : State) :
    Moves Part.wide s (orderArrives c b f s) := by
  unfold orderArrives
  simp only
  have h1 := (moves_port c { s.port c with strobe := true } s).gatedToWide
  have h2 := (h1.trans (idleToZero_moves c _).toWide).trans (h _)
  split
  · exact h1
  · split
    · exact h2
    · exact h2.trans (moves_port c _ _).gatedToWide

theorem translateOrder_moves (c : Chan) (n : Nat) (s : State) : Moves Part.reached s (translateOrder c n s) := by
  unfold translateOrder
  simp only
  split
  · exact standbySeekError_moves c s
  · exact (moves_raiseFor c _ _ _ s).trans (standbySeekError_moves c _)
  · split
    · exact moves_view c _ s
    · exact (moves_view c _ s).trans (makeRequest_moves c _)

theorem cylinderEffect_moves (c : Chan) (n : Nat) (w : Carried) (s : State) :
    Moves Part.wide s (cylinderEffect c n w s) := by
  unfold cylinderEffect
  split
  · exact .refl _ s
  · exact (moves_view c _ s).toWide
  · exact (translateOrder_moves c n s).toWide
  · exact (translateOrder_moves c n s).toWide
  · exact (translateOrder_moves c n s).toWide
  · exact (translateOrder_moves c n s).toWide
  · exact (orderDuringGate_moves c _ w s).gatedToWide.trans (reportGateEnd_moves _)
  · exact .refl _ s

theorem headStays_moves (c : Chan) (s : State) : Moves Part.reached s (headStays c s) := by
  unfold headStays
  split
  · exact (headAtOrder_decides c s).moves
  · exact .refl _ s

theorem keepRequest_moves (c : Chan) (s : State) : Moves Part.reached s (keepRequest c s) := by
  unfold keepRequest
  split
  · exact moves_arb s _
  · exact .refl _ s

theorem takeHead_moves (c : Chan) (x : Sel) (s : State) : Moves Part.reached s (takeHead c x s) := by
  unfold takeHead
  simp only
  have h := moves_view c ((s.view c).select x) s
  split
  · exact h.trans (headStays_moves c _)
  · split
    · exact h.trans (headStays_moves c _)
    · refine h.trans ?_
      unfold headTranslates setTarget
      simp only
      split
      · split
        · exact moves_view c _ _
        · exact standbySeekError_moves c _
      · exact (moves_raiseFor c _ _ _ _).trans (standbySeekError_moves c _)
      · split
        · exact ((moves_view c _ _).trans (keepRequest_moves c _)).trans (headStays_moves c _)
        · split
          · exact moves_view c _ _
          · exact (moves_view c _ _).trans (makeRequest_moves c _)

theorem headEffect_moves (c : Chan) (x : Sel) (w : Carried) (s : State) :
    Moves Part.wide s (headEffect c x w s) := by
  unfold headEffect
  split
  · exact .refl _ s
  · exact (takeHead_moves c x s).toWide
  · exact (takeHead_moves c x s).toWide
  · exact (takeHead_moves c x s).toWide
  · exact (takeHead_moves c x s).toWide
  · exact (takeHead_moves c x s).toWide
  · exact (orderDuringGate_moves c _ w s).gatedToWide.trans (reportGateEnd_moves _)
  · exact .refl _ s

theorem recalibrateEffect_moves (c : Chan) (s : State) : Moves Part.wide s (recalibrateEffect c s) := by
  have h : Moves Part.wide s (cylinderEffect c 0 .nothing (clearSeekError c s)) :=
    (moves_view c _ s).toWide.trans (cylinderEffect_moves c 0 _ _)
  unfold recalibrateEffect
  split
  · exact .refl _ s
  · exact h
  · exact h
  · exact h
  · exact h
  · exact h
  · exact .refl _ s
  · exact .refl _ s

theorem faultClearEffect_moves (c : Chan) (s : State) : Moves Part.wide s (faultClearEffect c s) := by
  unfold faultClearEffect
  split
  · unfold leaveFaulted
    simp only
    split
    · exact (moves_view c _ s).toWide
    · exact ((moves_view c _ s).trans (removeChain_moves c _)).toWide
  · exact (moves_view c _ s).toWide

theorem reportEffect_moves (c : Chan) (s : State) : Moves Part.wide s (reportEffect c s) := by
  unfold reportEffect
  exact (moves_view c _ s).toWide.trans (moves_port c _ _).gatedToWide

/-! ## Gates, presence, rotation -/

theorem gateEffect_moves (c : Chan) (l : GateLine) (us : Nat) (s : State) :
    Moves Part.reached s (gateEffect c l us s) := by
  have h : Moves Part.reached s (raiseNoPosition c l s) := moves_raiseFor c _ _ _ s
  unfold gateEffect
  split
  · exact .refl _ s
  · exact .refl _ s
  · split
    · exact h.trans (makeRequest_moves c _)
    · exact h
  · exact h
  · exact h
  · exact handGate_moves c l us s
  · exact .refl _ s
  · exact .refl _ s

theorem dropGate_moves (c : Chan) (w : Carried) (s : State) : Moves Part.wide s (dropGate c w s) := by
  have h : Moves Part.gated s (endPortGate c s) := by
    unfold endPortGate
    split
    · exact moves_port c _ s
    · exact .refl _ s
  unfold dropGate
  split
  · exact (h.trans (endGatePositioned_moves _ w _)).gatedToWide.trans (reportGateEnd_moves _)
  · split
    · exact (h.trans (idleToZero_moves c _).toGated).gatedToWide
    · exact .refl _ s

theorem detachView_moves (c : Chan) (s : State) : Moves Part.reached s (detachView c s) :=
  ((moves_view c _ s).trans (leave_moves c _ _)).trans (removeChain_moves c _)

theorem losePresence_moves (c : Chan) (w : Carried) (s : State) : Moves Part.wide s (losePresence c w s) := by
  unfold losePresence
  simp only
  refine Moves.trans (Moves.trans ?_ (moves_port c _ _).gatedToWide) (reportGateEnd_moves _)
  refine Moves.trans ?_ (giveCause_moves _ _ _).toWide
  refine Moves.trans ?_ (moves_raiseFor c _ _ _ _).toWide
  refine Moves.trans ?_ (detachView_moves c _).toWide
  unfold cutAtLoss
  split
  · exact (endGate_moves _ w s).gatedToWide
  · exact .refl _ s

theorem monitorStart_moves (k : StartKind) (s : State) : Moves Part.wide s (monitorStart k s) := by
  unfold monitorStart
  simp only
  split
  · split
    · exact (moves_raiseSole _ _ _ s).toWide.trans (moves_watch _ _)
    · exact moves_watch s _
  · split
    · split
      · exact (moves_raiseSole _ _ _ s).toWide.trans (moves_watch _ _)
      · exact moves_watch s _
    · exact moves_watch s _

theorem relayStart_moves (k : StartKind) (c : Chan) (s : State) : Moves Part.gated s (relayStart k c s) := by
  unfold relayStart
  simp only
  split
  · exact (moves_view c _ s).toGated.trans (moves_port c _ _)
  · exact .refl _ s

theorem transferStart_moves (k : StartKind) (s : State) : Moves Part.reached s (transferStart k s) := by
  unfold transferStart
  split
  · split
    · split
      · exact (decides_setXfer _ s).moves
      · exact (moves_drive s _).trans (decides_setXfer _ _).moves
    · exact .refl _ s
  all_goals exact .refl _ s

/-! ## Internal transfers -/

theorem readOutcome_moves (v : Vol) (r : ReadResult) (s : State) : Moves Part.wide s (readOutcome v r s) := by
  cases v
  · exact mapReadOutcome_moves r s
  · exact labelReadOutcome_moves r s

theorem writeDone_moves (v : Vol) (imgs : CommitImages) (s : State) : Moves Part.reached s (writeDone v imgs s) :=
  ((moves_drive s _).trans (dropDriveGates_moves _)).trans (mendSector_moves _ _)

theorem afterWrite_moves (v : Vol) (imgs : CommitImages) (s : State) : Moves Part.wide s (afterWrite v imgs s) := by
  unfold afterWrite
  split
  · split
    · exact reportGateEnd_moves s
    · exact (beginSector_decides .r s).moves.toWide
  · exact ((activate_moves imgs s).trans (internalEnds_decides _).moves.toGated).gatedToWide.trans
      (reportGateEnd_moves _)

/-! ## The restart -/

/-- What the judgement of a gate cut by a restart may touch: the event unit by occurrences alone (R109, R165). -/
theorem cutAtRestart_moves (w : Carried) (s : State) : Moves Part.gated s (cutAtRestart w s) :=
  ((moves_with s s.map s.arb s.pos s.drive s.relay s.ilock (s.free + 1)).toGated.trans
    (endGate_moves _ w _)).trans (cutInternal_moves _ w _).toGated

/-- With no gate up a restart judges nothing: no event (R165). -/
theorem cutAtRestart_idle (w : Carried) (s : State) (h : s.relay.gate = none) (hx : ∀ v, s.map.xfer ≠ .writing v) :
    (cutAtRestart w s).ev = s.ev := by
  unfold cutAtRestart endGate
  simp only [h]
  unfold cutInternal
  split
  · exact absurd ‹_› (hx _)
  · unfold dropDriveGates
    exact (offerNext_same _).2.2.2.2.1
  all_goals rfl

/-! ## Every command -/

/-- Every command answers a next state: no command stops the part. -/
theorem exec_next (i : Instr) (s : State) : ∃ t, exec i s = .next t := by
  cases i with
  | gateArrival c line us =>
    simp only [exec, execGateArrival]
    split <;> exact ⟨_, rfl⟩
  | unpassedGateDrop c line =>
    simp only [exec, execUnpassedGateDrop]
    split <;> exact ⟨_, rfl⟩
  | presenceLost c w =>
    simp only [exec, execPresenceLost]
    split <;> exact ⟨_, rfl⟩
  | attach c =>
    simp only [exec, execAttach]
    split <;> exact ⟨_, rfl⟩
  | writeClockLost w =>
    simp only [exec, execWriteClockLost]
    split <;> exact ⟨_, rfl⟩
  | supplyWriteCutAtCheckWord w =>
    simp only [exec, execSupplyWriteCutAtCheckWord]
    split <;> exact ⟨_, rfl⟩
  | internalWriteGateRise =>
    simp only [exec, execInternalWriteGateRise]
    split <;> exact ⟨_, rfl⟩
  | checkError =>
    simp only [exec, execCheckError]
    split
    · split <;> exact ⟨_, rfl⟩
    · exact ⟨_, rfl⟩
    · exact ⟨_, rfl⟩
  | internalReadEnd full h data =>
    simp only [exec, execInternalReadEnd]
    split <;> exact ⟨_, rfl⟩
  | internalWriteEnd =>
    simp only [exec, execInternalWriteEnd]
    split <;> exact ⟨_, rfl⟩
  | driveOrderAcknowledge =>
    simp only [exec, execDriveOrderAcknowledge]
    split <;> exact ⟨_, rfl⟩
  | orderWithdrawn w =>
    simp only [exec, execOrderWithdrawn]
    split
    · split <;> exact ⟨_, rfl⟩
    · exact ⟨_, rfl⟩
  | onCylinderFall w =>
    simp only [exec, execOnCylinderFall]
    split <;> exact ⟨_, rfl⟩
  | clearingStepSucceeded =>
    simp only [exec, execClearingStepSucceeded]
    split <;> exact ⟨_, rfl⟩
  | seekNoAnswer =>
    simp only [exec, execSeekNoAnswer]
    split <;> exact ⟨_, rfl⟩
  | clearingTimeLimit =>
    simp only [exec, execClearingTimeLimit]
    split <;> exact ⟨_, rfl⟩
  | recalibrationTimeLimit =>
    simp only [exec, execRecalibrationTimeLimit]
    split <;> exact ⟨_, rfl⟩
  | readyRise =>
    simp only [exec, execReadyRise]
    split <;> exact ⟨_, rfl⟩
  | readyFall w =>
    simp only [exec, execReadyFall]
    split
    · exact ⟨_, rfl⟩
    · split <;> exact ⟨_, rfl⟩
  | readyAccepted =>
    simp only [exec, execReadyAccepted]
    split
    · split <;> exact ⟨_, rfl⟩
    · exact ⟨_, rfl⟩
  | rotationLost w =>
    simp only [exec, execRotationLost]
    split
    · split
      · exact ⟨_, rfl⟩
      · split <;> exact ⟨_, rfl⟩
    · exact ⟨_, rfl⟩
  | supplyWarning w =>
    simp only [exec, execSupplyWarning]
    split <;> exact ⟨_, rfl⟩
  | supplyClearAccepted =>
    simp only [exec, execSupplyClearAccepted]
    split
    · split <;> exact ⟨_, rfl⟩
    · exact ⟨_, rfl⟩
  | budgetExpiry =>
    simp only [exec, execBudgetExpiry]
    split
    · split <;> exact ⟨_, rfl⟩
    all_goals exact ⟨_, rfl⟩
  | malformedFrame chars =>
    simp only [exec, execMalformedFrame]
    split <;> exact ⟨_, rfl⟩
  | replySent w =>
    simp only [exec, execReplySent]
    split
    · split <;> exact ⟨_, rfl⟩
    · exact ⟨_, rfl⟩
  | writeProtectedChange level =>
    simp only [exec, execWriteProtectedChange]
    split <;> exact ⟨_, rfl⟩
  | _ => exact ⟨_, rfl⟩

/-- A step always answers a next state. -/
theorem step_next (s : State) : ∃ t, step s = .next t := by
  unfold step
  split
  · exact ⟨_, rfl⟩
  · exact exec_next _ _

/-- A command has one next state. -/
theorem exec_unique {i : Instr} {s t u : State} (h : exec i s = .next t) (k : exec i s = .next u) : t = u := by
  rw [h] at k
  exact Host.Outcome.next.inj k

/-- The commands of the maintenance line, and power-on. -/
def ofLine : Instr → Bool
  | .powerOn _ | .pCommand _ | .rCommand _ _ | .rUptimeLow _ | .rUptimeHigh _ | .wEnableWord _ _ _
  | .wStagedImage _ _ _ | .wNotWritable _ _ _ | .tCommand _ _ | .cCommand | .uCommand | .kCommand | .iCommand
  | .xCommand | .malformedFrame _ | .replySent _ => true
  | _ => false

/-- Every part that a command other than those may touch. -/
def Part.commanded : List Part := .warning :: Part.wide

theorem Moves.toCommanded {s t : State} (h : Moves Part.wide s t) : Moves Part.commanded s t := h.mono (by decide)

/-- What every command but the maintenance line's and power-on may touch: no word of the line, no uptime, no command in
the queue; and the event unit by occurrences alone. -/
theorem exec_moves (i : Instr) (s t : State) (hi : ofLine i = false) (e : exec i s = .next t) :
    Moves Part.commanded s t := by
  have port : ∀ (c : Chan) (p : Port) (u : State), Moves Part.wide u (setPort c p u) :=
    fun c p u => (moves_port c p u).gatedToWide
  have drive : ∀ (d : DrivePort) (u : State), Moves Part.wide u { u with drive := d } :=
    fun d u => (moves_drive u d).toWide
  cases i with
  | powerOn _ | pCommand _ | rCommand _ _ | rUptimeLow _ | rUptimeHigh _ | wEnableWord _ _ _ | wStagedImage _ _ _
  | wNotWritable _ _ _ | tCommand _ _ | cCommand | uCommand | kCommand | iCommand | xCommand | malformedFrame _
  | replySent _ => exact absurd (show true = false from hi) Bool.noConfusion
  | cylinderOrder c v w =>
    obtain rfl := Host.Outcome.next.inj e
    exact (orderArrives_moves c _ _ (cylinderEffect_moves c _ w) s).toCommanded
  | headOrder c b w =>
    obtain rfl := Host.Outcome.next.inj e
    exact (orderArrives_moves c _ _ (headEffect_moves c _ w) s).toCommanded
  | recalibrate c =>
    obtain rfl := Host.Outcome.next.inj e
    exact (orderArrives_moves c _ _ (recalibrateEffect_moves c) s).toCommanded
  | faultClear c =>
    obtain rfl := Host.Outcome.next.inj e
    exact (orderArrives_moves c _ _ (faultClearEffect_moves c) s).toCommanded
  | report c =>
    obtain rfl := Host.Outcome.next.inj e
    exact (orderArrives_moves c _ _ (reportEffect_moves c) s).toCommanded
  | unknownFunctionCode c _ =>
    obtain rfl := Host.Outcome.next.inj e
    exact (orderArrives_moves c _ _ (fun u => .refl _ u) s).toCommanded
  | orderNamingNoKind c _ =>
    obtain rfl := Host.Outcome.next.inj e
    exact (orderArrives_moves c _ _ (fun u => .refl _ u) s).toCommanded
  | orderStrobeFall c =>
    obtain rfl := Host.Outcome.next.inj e
    exact (port c _ s).toCommanded
  | gateArrival c l us =>
    simp only [exec, execGateArrival] at e
    split at e <;> obtain rfl := Host.Outcome.next.inj e
    · exact (port c _ s).toCommanded
    · exact (((port c _ s).trans (port c _ _)).trans
        ((idleToZero_moves c _).trans (gateEffect_moves c l us _)).toWide).toCommanded
  | gateDrop c w =>
    obtain rfl := Host.Outcome.next.inj e
    exact (dropGate_moves c w s).toCommanded
  | unpassedGateDrop c l =>
    simp only [exec, execUnpassedGateDrop] at e
    split at e <;> obtain rfl := Host.Outcome.next.inj e
    · exact (dropGate_moves c _ s).toCommanded
    · exact (port c _ s).toCommanded
  | presenceLost c w =>
    simp only [exec, execPresenceLost] at e
    split at e <;> obtain rfl := Host.Outcome.next.inj e
    · exact ((port c _ s).trans (moves_view c _ _).toWide).toCommanded
    · exact ((port c _ s).trans (losePresence_moves c w _)).toCommanded
  | presentRise c =>
    obtain rfl := Host.Outcome.next.inj e
    exact (port c _ s).toCommanded
  | attach c =>
    simp only [exec, execAttach] at e
    split at e <;> obtain rfl := Host.Outcome.next.inj e
    · exact (((moves_view c _ s).toGated.trans (moves_mbox _ _)).trans
        (giveCause_moves _ _ _).toGated).gatedToWide.toCommanded
    · exact .refl _ s
  | writeClockLost w =>
    simp only [exec, execWriteClockLost] at e
    split at e <;> obtain rfl := Host.Outcome.next.inj e
    · exact ((endGatePositioned_moves _ w s).gatedToWide.trans (reportGateEnd_moves _)).toCommanded
    · exact .refl _ s
  | supplyWriteCutAtCheckWord w =>
    simp only [exec, execSupplyWriteCutAtCheckWord] at e
    split at e <;> obtain rfl := Host.Outcome.next.inj e
    · exact ((endGatePositioned_moves _ w s).gatedToWide.trans (reportGateEnd_moves _)).toCommanded
    · exact .refl _ s
  | sectorStart k w =>
    obtain rfl := Host.Outcome.next.inj e
    exact ((((((monitorStart_moves k s).trans (overrun_moves w _).gatedToWide).trans
      (relayStart_moves k .a _).gatedToWide).trans (relayStart_moves k .b _).gatedToWide).trans
      (transferStart_moves k _).toWide).trans (reportGateEnd_moves _)).toCommanded
  | internalWriteGateRise =>
    simp only [exec, execInternalWriteGateRise] at e
    split at e <;> obtain rfl := Host.Outcome.next.inj e
    · exact ((drive _ s).trans (decides_setXfer _ _).moves.toWide).toCommanded
    all_goals exact .refl _ s
  | checkError =>
    simp only [exec, execCheckError] at e
    split at e
    · split at e <;> obtain rfl := Host.Outcome.next.inj e
      · exact ((moves_relay s _).toWide.trans (port _ _ _)).toCommanded
      · exact .refl _ s
    · obtain rfl := Host.Outcome.next.inj e
      exact (decides_setXfer _ s).moves.toWide.toCommanded
    · obtain rfl := Host.Outcome.next.inj e
      exact .refl _ s
  | internalReadEnd full h data =>
    simp only [exec, execInternalReadEnd] at e
    split at e <;> obtain rfl := Host.Outcome.next.inj e
    · exact ((((dropDriveGates_moves s).toWide.trans (readOutcome_moves _ _ _)).trans
        (internalEnds_decides _).moves.toWide).trans (reportGateEnd_moves _)).toCommanded
    all_goals exact .refl _ s
  | internalWriteEnd =>
    simp only [exec, execInternalWriteEnd] at e
    split at e <;> obtain rfl := Host.Outcome.next.inj e
    · exact ((writeDone_moves _ _ s).toWide.trans (afterWrite_moves _ _ _)).toCommanded
    · exact (((dropDriveGates_moves s).trans (internalEnds_decides _).moves).toWide.trans
        (reportGateEnd_moves _)).toCommanded
    all_goals exact .refl _ s
  | driveOrderAcknowledge =>
    simp only [exec, execDriveOrderAcknowledge] at e
    split at e <;> obtain rfl := Host.Outcome.next.inj e
    · exact (((drive _ s).trans (drive _ _)).trans (orderAcknowledged_moves _ _).toWide).toCommanded
    · exact (drive _ s).toCommanded
  | driveAcknowledgeFall =>
    obtain rfl := Host.Outcome.next.inj e
    exact ((drive _ s).trans (offerNext_decides _).moves.toWide).toCommanded
  | orderWithdrawn w =>
    simp only [exec, execOrderWithdrawn] at e
    split at e
    · split at e <;> obtain rfl := Host.Outcome.next.inj e
      · exact ((((drive _ s).trans (orderFailed_moves _ w _)).trans (offerNext_decides _).moves.toWide).trans
          (reportGateEnd_moves _)).toCommanded
      · exact .refl _ s
    · obtain rfl := Host.Outcome.next.inj e
      exact .refl _ s
  | onCylinderRise =>
    obtain rfl := Host.Outcome.next.inj e
    refine ((drive { s.drive with onCylinder := true } s).trans ?_).toCommanded
    unfold onCylinderJudged
    split
    · split
      · split
        · exact contradictory_moves _ _
        · exact seekReached_moves _ _
      · exact .refl _ _
    · split
      · split
        · exact contradictory_moves _ _
        · exact recalibrated_moves _
      · exact .refl _ _
    all_goals exact .refl _ _
  | seekErrorRise w =>
    obtain rfl := Host.Outcome.next.inj e
    refine ((drive { s.drive with seekError := true } s).trans ?_).toCommanded
    unfold seekErrorJudged
    split
    · split
      · split
        · exact contradictory_moves _ _
        · exact (attemptFailed_moves _ _).toWide
      · exact .refl _ _
    · split
      · split
        · exact contradictory_moves _ _
        · exact stepFailed_moves _ _ _
      · exact .refl _ _
    · exact positionLost_moves w _
    · exact .refl _ _
    · exact .refl _ _
  | driveFaultLine w =>
    obtain rfl := Host.Outcome.next.inj e
    refine (((drive { s.drive with fault := true } s).trans
      (?_ : Moves Part.wide _ (raiseFaultLine { s with drive := { s.drive with fault := true } }))).trans ?_).toCommanded
    · unfold raiseFaultLine
      split
      · exact (moves_raiseSole _ _ _ _).toWide
      · exact .refl _ _
    · unfold faultJudged
      split
      · split
        · exact (attemptFailed_moves _ _).toWide
        · exact .refl _ _
      · split
        · exact stepFailed_moves _ _ _
        · exact .refl _ _
      · split
        · exact (faultWhileRunning_moves w _).gatedToWide
        · split
          · exact restartReading_moves w _
          · exact .refl _ _
      · exact .refl _ _
      · exact .refl _ _
  | onCylinderFall w =>
    simp only [exec, execOnCylinderFall] at e
    split at e <;> obtain rfl := Host.Outcome.next.inj e
    · exact ((drive _ s).trans (positionLost_moves w _)).toCommanded
    · exact (drive _ s).toCommanded
  | clearingStepSucceeded =>
    simp only [exec, execClearingStepSucceeded] at e
    split at e <;> obtain rfl := Host.Outcome.next.inj e
    · exact ((drive _ s).trans (startRecalibration_decides _ _).moves.toWide).toCommanded
    · exact (drive _ s).toCommanded
  | seekNoAnswer =>
    simp only [exec, execSeekNoAnswer] at e
    split at e <;> obtain rfl := Host.Outcome.next.inj e
    · exact (attemptFailed_moves _ s).toWide.toCommanded
    · exact .refl _ s
  | clearingTimeLimit =>
    simp only [exec, execClearingTimeLimit] at e
    split at e <;> obtain rfl := Host.Outcome.next.inj e
    · exact (stepFailed_moves _ _ s).toCommanded
    · exact .refl _ s
  | recalibrationTimeLimit =>
    simp only [exec, execRecalibrationTimeLimit] at e
    split at e <;> obtain rfl := Host.Outcome.next.inj e
    · exact (stepFailed_moves _ _ s).toCommanded
    · exact .refl _ s
  | writeProtectedChange level =>
    simp only [exec, execWriteProtectedChange] at e
    split at e <;> obtain rfl := Host.Outcome.next.inj e
    · exact (drive _ s).toCommanded
    · exact (drive _ s).toCommanded
  | readyRise =>
    simp only [exec, execReadyRise] at e
    split at e <;> obtain rfl := Host.Outcome.next.inj e
    · exact ((drive _ s).trans (setWatchState_moves _ _)).toCommanded
    · exact (drive _ s).toCommanded
  | readyFall w =>
    have h := (drive { s.drive with ready := false } s).trans (moves_watch _
      (readyLost { s with drive := { s.drive with ready := false } }).watch)
    simp only [exec, execReadyFall] at e
    split at e
    · obtain rfl := Host.Outcome.next.inj e
      exact (h.trans (setWatchState_moves _ _)).toCommanded
    · split at e <;> obtain rfl := Host.Outcome.next.inj e
      · refine (h.trans ?_).toCommanded
        unfold acceptedFall
        split
        · exact .refl _ _
        · exact .refl _ _
        · exact spinDown_moves w _
        · exact spinDown_moves w _
        · exact spinDown_moves w _
        · exact spinDown_moves w _
        · exact fallInHold_moves w _
        · exact spinDown_moves w _
      · exact h.toCommanded
  | readyAccepted =>
    simp only [exec, execReadyAccepted] at e
    split at e
    · split at e <;> obtain rfl := Host.Outcome.next.inj e
      · exact ((moves_watch s _).trans (enterCalibrating_moves _)).toCommanded
      · exact (moves_watch s _).toCommanded
    · obtain rfl := Host.Outcome.next.inj e
      exact .refl _ s
  | rotationLost w =>
    simp only [exec, execRotationLost] at e
    split at e
    · split at e
      · obtain rfl := Host.Outcome.next.inj e
        exact (((moves_raiseSole _ _ _ s).toWide.trans (moves_watch _ _)).trans (spinDown_moves w _)).toCommanded
      · split at e <;> obtain rfl := Host.Outcome.next.inj e
        · exact ((moves_watch s _).trans (fallInHold_moves w (readyLost s))).toCommanded
        · exact (moves_watch s _).toCommanded
    · obtain rfl := Host.Outcome.next.inj e
      exact .refl _ s
  | supplyWarning w =>
    have h : ∀ u : Watch, Moves Part.commanded s { s with warning := true, watch := u } := fun u =>
      ⟨fun q hq => by cases q <;> first | rfl | simp [Part.commanded, Part.wide] at hq, .none⟩
    simp only [exec, execSupplyWarning] at e
    split at e <;> obtain rfl := Host.Outcome.next.inj e
    · exact h _
    · refine (h { s.watch with clearDebounce := 0 }).trans ?_
      unfold acceptWarning
      simp only
      split
      · exact ((moves_watch _ _).trans (moves_raiseSole _ _ _ _).toWide).toCommanded
      · exact (((moves_watch _ _).trans (moves_raiseSole _ _ _ _).toWide).trans (enterHold_moves w _)).toCommanded
  | supplyWarningInputClears =>
    obtain rfl := Host.Outcome.next.inj e
    exact ⟨fun q hq => by cases q <;> first | rfl | simp [Part.commanded] at hq, .none⟩
  | supplyClearAccepted =>
    simp only [exec, execSupplyClearAccepted] at e
    split at e
    · split at e <;> obtain rfl := Host.Outcome.next.inj e
      · refine ((moves_watch s { s.watch with warnAccepted := false }).trans ?_).toCommanded
        unfold leaveHold
        split
        · exact enterCalibrating_moves _
        · exact setWatchState_moves _ _
      · exact (moves_watch s _).toCommanded
    · obtain rfl := Host.Outcome.next.inj e
      exact .refl _ s
  | releaseInterval =>
    obtain rfl := Host.Outcome.next.inj e
    exact (judgeRelease_decides s).moves.toWide.toCommanded
  | budgetExpiry =>
    simp only [exec, execBudgetExpiry] at e
    split at e
    · split at e <;> obtain rfl := Host.Outcome.next.inj e
      · unfold budgetExpires
        split
        · exact (moves_arb s _).toWide.toCommanded
        · exact (grantEnd_decides _ _ s).moves.toWide.toCommanded
      · exact .refl _ s
    all_goals
      obtain rfl := Host.Outcome.next.inj e
      exact .refl _ s
  | interlockChainEnd c =>
    obtain rfl := Host.Outcome.next.inj e
    exact ((ageOut_moves _ s).trans (endChain_moves c _)).toWide.toCommanded
  | interlockAgedOut v n =>
    obtain rfl := Host.Outcome.next.inj e
    exact (ageOut_moves _ s).toWide.toCommanded

end Sys2Proof.Machine
end

