-- ==== Sys2Proof/Tests/Slice0.lean ====
section
/-! SUPPORT. Tests: ill-formed operands, small tests of each command against the values the spec works out, and for
every statement with hypotheses a state and operands that meet them. -/

namespace Sys2Proof.Tests

set_option Elab.async false

open Sys2Proof Sys2Proof.Machine

/-! ## Small states -/

/-- What an outcome's next state satisfies. -/
def after (i : Instr) (s : State) (p : State → Bool) : Bool :=
  match exec i s with
  | .next t => p t
  | .fault _ => false
  | .refused _ => false

/-- The detail a flag's record holds. -/
def detailOf (f : Flag) (s : State) : Option Nat := (s.ev.record f).map (·.detail.toNat)

/-- An image of these words, the others 0, with its check word. -/
def image (ws : List (Nat × Nat)) : Image :=
  withCheckWord (ws.foldl (fun img p => img.setIfInBounds p.1 (BitVec.ofNat 16 p.2)) .zero)

/-- The map of the worked cases of 3.4, with the parameters of 4.11 and 7.9. -/
def mapImage : Image :=
  image ([(0, 0x5A3C), (1, 41), (2, 12), (3, 400), (4, 30), (5, 250), (6, 4), (7, 300), (8, 60), (9, 0), (10, 50),
      (11, 150)]
    ++ [(12, 0x8010), (13, 0), (14, 120), (15, 20), (16, 0x8002), (17, 120), (18, 40), (19, 200)]
    ++ [(20, 0x8003), (21, 200), (22, 1), (23, 400), (24, 0x8001), (25, 300), (26, 40), (27, 200)]
    ++ [(28, 0x8002), (29, 0), (30, 40), (31, 200), (32, 0x8003), (33, 40), (34, 1), (35, 400)]
    ++ [(36, 0x8010), (37, 41), (38, 150), (39, 240)])

/-- The label of the worked cases of 3.4. -/
def labelImage : Image :=
  image [(0, 0x3CA5), (1, 0x0412), (2, 0x8110), (3, 0), (4, 200), (5, 1), (18, 0x8110), (19, 0), (20, 200), (21, 201)]

/-- A view in STANDBY. -/
def standbyView : View := { View.initial with st := .standby, debounce := 50 }

/-- The part in RUNNING with a VALID map and label, both views in STANDBY, the arbiter FREE, the actuator on cylinder
77, no flag set. -/
def running : State :=
  { State.reset with
    views := ⟨standbyView, standbyView⟩,
    ports := ⟨.initial ⟨false, false, false, true⟩, .initial ⟨false, false, false, true⟩⟩,
    map := { MapStore.initial with
      mapState := .valid, labelState := .valid, activeMap := mapImage, heldLabel := some labelImage },
    pos := { Positioner.initial with st := .idle, cyl := some 77, lastSel := some ⟨.f, .h0⟩ },
    drive := .initial ⟨true, true, false, false, false, false⟩,
    watch := { Watch.initial true false with
      st := .running, readyAccepted := true, readyDebounce := 200, sync := true, mapOwed := false,
      labelOwed := false, labelReadDone := true, startUp := false },
    ev := .initial, uptime := 1000#32 }

/-- The part with a channel's view changed. -/
def withView (c : Chan) (f : View → View) (s : State) : State := setView c (f (s.view c)) s

/-- A channel's view in a state, with a target. -/
def viewIn (st : ViewState) (t : Option Target) (c : Chan) (s : State) : State :=
  withView c (fun v => { v with st := st, target := t }) s

/-- A channel REQUESTING a place of volume F. -/
def requesting (c : Chan) (t : Target) (s : State) : State :=
  let s := viewIn .requesting (some t) c s
  { s with arb := { s.arb with request := s.arb.request.set c (some ⟨.f, t.physical⟩) } }

/-- A channel that owns the actuator, POSITIONED at a target, 90 ticks into its grant. -/
def owned (c : Chan) (t : Target) (s : State) : State :=
  let s := viewIn .positioned (some t) c s
  { s with
    arb := { s.arb with st := .owned c, stamp := some 910#32, held := 90, budget := 400, gLast := c },
    pos := { s.pos with cyl := some t.physical } }

/-- A gate of a channel as passed at sector 5 of a target of volume F, head 0. -/
def gateOn (c : Chan) (kind : GateKind) (t : Target) : GateRecord :=
  { chan := c, kind := kind, inWindow := false, addr := ⟨.f, t.physical, .h0, 5⟩, cls := t.cls, dataStarted := false,
    words := 0, checkWord := false, firstWord := none, checkError := false }

/-- The owner's gate active. -/
def gated (c : Chan) (kind : GateKind) (t : Target) (s : State) : State :=
  let line := if kind = .read then GateLine.read else .write
  let s := owned c t s
  let s := viewIn .transferring (some t) c (setPort c { (s.port c).setLine line true with gate := some line } s)
  { s with
    relay := { s.relay with gate := some (gateOn c kind t) },
    drive := { s.drive with readGate := decide (kind = .read), writeGate := decide (kind ≠ .read) } }

/-- The targets of the worked cases of 3.4. -/
def target57 : Target := ⟨57, 77, .readWrite, true⟩
/-- A's logical 130, SHARED. -/
def target130 : Target := ⟨130, 210, .shared, false⟩
/-- A's logical 310, READ-ONLY. -/
def target310 : Target := ⟨310, 210, .readOnly, false⟩
/-- A's logical 200, MAILBOX. -/
def target200 : Target := ⟨200, 400, .mailbox, false⟩
/-- B's logical 10, SHARED. -/
def targetB10 : Target := ⟨10, 210, .shared, false⟩
/-- B's logical 41, READ-WRITE. -/
def targetB41 : Target := ⟨41, 240, .readWrite, true⟩

/-- A whole data field with its check word, its first word as given. -/
def fullField (first : Word) : Carried := ⟨[], true, first :: List.replicate 255 7#16, true⟩

/-- A data field of so many words, cut short. -/
def shortField (n : Nat) : Carried := ⟨[], true, List.replicate n 7#16, false⟩

/-- An interlock entry of a channel on cylinder `cyl` of volume F, made and last written at a stamp. -/
def entry (c : Chan) (cyl : Nat) (at' : Stamp) : Entry := ⟨c, .f, cyl, at', at', 3⟩

/-- The part with interlock entries and chain stamps. -/
def interlocked (es : List Entry) (a b : Option Stamp) (s : State) : State :=
  { s with ilock := { s.ilock with list := es, chain := ⟨a, b⟩ } }

/-- A view DEFERRED at a target, its deferred request held. -/
def deferredAt (c : Chan) (t : Target) (s : State) : State :=
  let s := viewIn .deferred (some t) c s
  { s with ilock := { s.ilock with deferred := s.ilock.deferred.set c (some ⟨.f, t.physical⟩) } }

/-- A slot posted to a reader by its peer, with sequence number 9. -/
def postedTo (reader : Chan) (slot : Fin 24) (s : State) : State :=
  let s : State := { s with mbox := { s.mbox with
    slots := s.mbox.slots.set slot (some ⟨peer reader, 9#8, false, 800#32⟩), notice := s.mbox.notice.set reader [slot] } }
  withView reader (fun v => { v with causes := { v.causes with mailboxNotice := true } }) s

/-- The part with the drive given up: Drive Watch in a state, everything halted. -/
def haltedIn (st : WatchState) : State :=
  { State.reset with
    arb := { Arbiter.initial with st := .halted }, watch := { Watch.initial true false with st := st },
    drive := .initial ⟨true, true, false, false, false, false⟩, ev := .initial, uptime := 1000#32 }

/-- An order at the drive port, offered, in a positioner state with a request. -/
def offering (o : DriveOrder) (st : PosState) (r : Option PosRequest) (s : State) : State :=
  { s with drive := { s.drive with offered := some o }, pos := { s.pos with st := st, request := r, ticks := none } }

/-- A positioner step whose order was acknowledged so many ticks ago. -/
def stepping (st : PosState) (r : Option PosRequest) (ticks : Nat) (s : State) : State :=
  { s with pos := { s.pos with st := st, request := r, ticks := some ticks } }

/-- An internal transfer in hand at the head of the queue. -/
def transfer (k : InternalKind) (x : Xfer) (st : WatchState) (s : State) : State :=
  { s with arb := { s.arb with st := .internal, queue := [k] }, map := { s.map with xfer := x },
           watch := { s.watch with st := st } }

/-- The maintenance line on a page. -/
def onPage (n : Nat) (s : State) : State := { s with line := { s.line with page := n } }

/-! ## Ill-formed operands are refused -/

theorem test_wf_header : Carried.wellFormed ⟨[1#16, 2#16, 3#16, 4#16], false, [], false⟩ = false := by decide
theorem test_wf_data : Carried.wellFormed ⟨[], true, List.replicate 257 0#16, false⟩ = false := by decide +kernel
theorem test_wf_sync : Carried.wellFormed ⟨[], false, [1#16], false⟩ = false := by decide
theorem test_wf_check : Carried.wellFormed ⟨[], true, [1#16], true⟩ = false := by decide
theorem test_wf_full : (fullField 1#16).wellFormed = true := by decide +kernel
theorem test_wf_knownFunction :
    (Instr.unknownFunctionCode .a 3#10).wellFormed = false ∧ (Instr.unknownFunctionCode .a 4#10).wellFormed = true := by
  decide
theorem test_wf_writeClockLost :
    (Instr.writeClockLost .nothing).wellFormed = false ∧ (Instr.writeClockLost (fullField 1#16)).wellFormed = false := by
  decide +kernel
theorem test_wf_supplyCut : (Instr.supplyWriteCutAtCheckWord (shortField 9)).wellFormed = false := by decide
theorem test_wf_agedOut :
    (Instr.interlockAgedOut .f 0).wellFormed = false ∧ (Instr.interlockAgedOut .r 408).wellFormed = false
      ∧ (Instr.interlockAgedOut .r 407).wellFormed = true := by decide
/-- The characters of a frame are those of its operands, in capitals or small digits. -/
theorem test_wf_text :
    (Instr.rCommand 10#8 [82#8, 32#8, 48#8, 97#8]).wellFormed = true
      ∧ (Instr.rCommand 10#8 [82#8, 32#8, 48#8, 65#8]).wellFormed = true
      ∧ [Instr.rCommand 11#8 [82#8, 32#8, 48#8, 97#8], .rCommand 10#8 [], .rUptimeLow [82#8, 32#8, 48#8, 68#8],
          .rUptimeHigh [82#8, 32#8, 48#8, 67#8], .tCommand 1#8 [82#8, 32#8, 48#8, 49#8],
          .wEnableWord 3#8 1#16 [87#8, 32#8, 48#8, 51#8], .wStagedImage 3#8 1#16 (Frame.write 3#8 2#16).chars,
          .wNotWritable 3#8 1#16 (Frame.write 4#8 1#16).chars].any (·.wellFormed) = false := by decide +kernel
theorem test_wf_page : (Instr.pCommand 100).wellFormed = false ∧ (Instr.pCommand 99).wellFormed = true := by decide
/-- `U` is a well-formed frame, `u` is not. -/
theorem test_wf_malformed :
    (Instr.malformedFrame [⟨85#8, true⟩]).wellFormed = false
      ∧ (Instr.malformedFrame [⟨117#8, true⟩]).wellFormed = true := by decide
/-- Every command with a gate's words checks them. -/
theorem test_wf_carried :
    [Instr.cylinderOrder .a 1#10 ⟨[], false, [1#16], false⟩, .headOrder .a 1#10 ⟨[], false, [1#16], false⟩,
      .gateDrop .a ⟨[], false, [1#16], false⟩, .presenceLost .a ⟨[], false, [1#16], false⟩,
      .sectorStart .index ⟨[], false, [1#16], false⟩, .orderWithdrawn ⟨[], false, [1#16], false⟩,
      .seekErrorRise ⟨[], false, [1#16], false⟩, .driveFaultLine ⟨[], false, [1#16], false⟩,
      .onCylinderFall ⟨[], false, [1#16], false⟩, .readyFall ⟨[], false, [1#16], false⟩,
      .rotationLost ⟨[], false, [1#16], false⟩, .supplyWarning ⟨[], false, [1#16], false⟩,
      .replySent ⟨[], false, [1#16], false⟩].any (·.wellFormed)
      = false := by decide

/-! ## Images and arithmetic the spec works out -/

/-- The lookups of 3.4. -/
theorem test_lookup :
    translate running .a .f 57 = .mapped target57 ∧ translate running .a .f 130 = .mapped target130
      ∧ translate running .a .f 160 = .unmapped ∧ translate running .a .f 200 = .mapped target200
      ∧ translate running .a .f 310 = .mapped target310 ∧ translate running .b .f 10 = .mapped targetB10
      ∧ translate running .b .f 190 = .mapped ⟨190, 389, .readWrite, true⟩
      ∧ translate running .b .f 191 = .unmapped ∧ translate running .a .r 57 = .mapped ⟨57, 58, .readWrite, true⟩
      ∧ translate running .b .r 57 = .mapped ⟨57, 258, .readWrite, true⟩ ∧ translate running .a .f 700 = .unmapped := by
  decide +kernel
/-- The check word of 3.5: a sum of 0x1F3C0 gives 0x0C40. -/
theorem test_checkWord : imageWord (image [(0, 0xFFFF), (1, 0xF3C1)]) 255 = 0x0C40 := by decide +kernel
/-- The images of 3.4 are valid; with A's F4 of 100 cylinders from 240 the map meets B's F3 (V6). -/
theorem test_validate :
    validateMap mapImage = none ∧ validateLabel labelImage = none ∧ validatePair mapImage labelImage = none
      ∧ validateMap (withCheckWord ((mapImage.set 26 100#16).set 27 240#16)) = some 6
      ∧ validateMap (mapImage.set 41 1#16) = some 2 := by decide +kernel
/-- The charges of 4.13. -/
theorem test_charge :
    chargedUsage ⟨1200, 400⟩ .b 310 = ⟨1200, 710⟩ ∧ chargedUsage ⟨32700, 9001⟩ .a 500 = ⟨16600, 4500⟩
      ∧ chargedUsage ⟨20000, 7000⟩ .a 65535 = ⟨32767, 3500⟩ ∧ chargedUsage ⟨100, 32767⟩ .b 1 = ⟨50, 16384⟩ := by
  decide

/-! ## Commands -/

theorem test_powerOn :
    after (.powerOn { InputLines.low with warning := true }) running (fun t =>
      decide (t.watch.st = .supplyHold) && decide ((t.view .a).st = .detached)
        && detailOf (.sole .supplyWarning) t == some 8) = true := by decide +kernel

/-- A's 57 at a FREE arbiter with the actuator on 77: its grant at once. -/
theorem test_cylinderOrder :
    after (.cylinderOrder .a 57#10 .nothing) running (fun t =>
      decide ((t.view .a).st = .positioned) && decide ((t.view .a).target = some target57)
        && decide (t.arb.st = .owned .a) && decide (t.arb.budget = 400)) = true := by decide +kernel

/-- The tie of 4.11 at 20010: A re-seeks with B waiting, is charged 200, and B wins by G_last. -/
theorem test_tie :
    after (.cylinderOrder .a 130#10 .nothing)
        (let s := requesting .b targetB41 (owned .a target57 running)
         { s with uptime := 20010#32, arb := { s.arb with held := 200, usage := ⟨1000, 400⟩, stamp := some 19810#32 } })
        (fun t =>
      decide (t.arb.usage = ⟨1200, 400⟩) && decide (t.arb.st = .claimed .b .fresh) && decide (t.arb.gLast = .b)
        && decide (t.pos.st = .seeking) && decide (t.arb.awaited = some 240)
        && decide ((t.view .a).st = .requesting)) = true := by decide +kernel

/-- Volume R, head 1, in STANDBY. -/
theorem test_headOrder :
    after (.headOrder .b 3#10 .nothing) running (fun t =>
      decide ((t.view .b).sel = ⟨.r, .h1⟩) && (t.port .b).ack) = true := by decide +kernel

/-- B's logical 0 is physical 200. -/
theorem test_recalibrate :
    after (.recalibrate .b) running (fun t =>
      decide ((t.view .b).target = some ⟨0, 200, .shared, false⟩) && decide (t.arb.awaited = some 200)
        && decide (t.drive.offered = some (.cylinder 200))) = true := by decide +kernel

theorem test_faultClear :
    after (.faultClear .a)
        (withView .a (fun v => { v with st := .faulted, fault := .gateOverrun, target := some target57 }) running)
        (fun t => decide ((t.view .a).st = .standby) && decide ((t.view .a).fault = .none)
          && decide ((t.view .a).target = some target57)) = true := by decide +kernel

/-- PEER ATTACHED and PREEMPTED, no slot posted, cause GATE OVERRUN: bits 12 and 9, slot 31, code 2. -/
theorem test_report :
    after (.report .a)
        (withView .a (fun v => { v with
          st := .faulted, fault := .gateOverrun,
          causes := { Causes.empty with peerAttached := true, preempted := true } }) running)
        (fun t => (t.port .a).returnBus == 0x12FA#16 && decide ((t.view .a).causes = .empty)) = true := by
  decide +kernel

theorem test_unknownFunctionCode :
    after (.unknownFunctionCode .a 8#10) running (fun t => (t.port .a).ack && decide (t.view .a = running.view .a))
      = true := by decide +kernel

theorem test_orderNamingNoKind :
    after (.orderNamingNoKind .b 0#10) running (fun t => (t.port .b).ack && decide (t.view .b = running.view .b))
      = true := by decide +kernel

/-- The lines of an order at a channel port, and of a HEAD and a CYLINDER order at the drive port. -/
theorem test_orderLines :
    orderOnLines .b 2#2 3#10 .nothing = .report .b ∧ orderOnLines .a 2#2 0#10 .nothing = .unknownFunctionCode .a 0#10
      ∧ orderOnLines .a 0#2 407#10 .nothing = .cylinderOrder .a 407#10 .nothing
      ∧ (DriveOrder.head ⟨.r, .h0⟩ .mapStore).bus = 2#10 ∧ (DriveOrder.cylinder 407).bus = 407#10 := by decide

theorem test_orderStrobeFall :
    after (.orderStrobeFall .a) (setPort .a { running.port .a with strobe := true, ack := true, returnBus := 7#16 } running)
      (fun t => !(t.port .a).ack && (t.port .a).returnBus == 0#16) = true := by decide +kernel

/-- A write to READ-ONLY space is suppressed by check 1 of R107: E2 with a data write and check 1. -/
theorem test_gateArrival_suppressed :
    after (.gateArrival .a .write 500) (owned .a target310 running) (fun t =>
      detailOf (.chan .a .protectedWrite) t == some 0x4001 && decide ((t.view .a).st = .faulted)
        && !t.drive.writeGate && decide (t.arb.st = .free)) = true := by decide +kernel

/-- 120 us is no longer inside the header window (log 5). -/
theorem test_gateArrival_window :
    after (.gateArrival .a .write 119) (owned .a target57 running) (fun t =>
        decide (t.relay.gate.map (·.kind) = some .formatWrite)) = true
      ∧ after (.gateArrival .a .write 120) (owned .a target57 running) (fun t =>
        decide (t.relay.gate.map (·.kind) = some .dataWrite)) = true := by decide +kernel

/-- A full SHARED write makes an interlock entry of one sector. -/
theorem test_gateDrop_shared :
    after (.gateDrop .a (fullField 9#16)) (gated .a .dataWrite target130 running) (fun t =>
      decide (t.ilock.list = [⟨.a, .f, 210, 1000#32, 1000#32, 1⟩]) && decide (t.relay.torn = [])
        && decide (t.ilock.chain.a = some 1000#32)) = true := by decide +kernel

/-- A REQUESTING peer on a place that an older entry holds is not deferred by an entry made elsewhere. -/
theorem test_gateDrop_elsewhere :
    after (.gateDrop .a (fullField 9#16))
        (interlocked [entry .a 240 985#32] (some 985#32) none
          (requesting .b targetB41 (gated .a .dataWrite target130 running)))
        (fun t => decide (t.ilock.list.length = 2) && decide ((t.view .b).st = .requesting)) = true := by decide +kernel

/-- 200 words are a torn sector; cylinder 77 lies in no extent of B. -/
theorem test_gateDrop_torn :
    after (.gateDrop .a (shortField 200)) (gated .a .dataWrite target57 running) (fun t =>
      decide (t.relay.torn = [⟨⟨.f, 77, .h0, 5⟩, .chan .a, .shortWrite, 1000#32⟩])
        && detailOf (.chan .a .tornSector) t == some 200 && decide ((t.view .b).causes = .empty)) = true := by
  decide +kernel

/-- PRESENT lost in STANDBY: E28 with the view state. -/
theorem test_presenceLost :
    after (.presenceLost .a .nothing) running (fun t =>
      decide ((t.view .a).st = .detached) && detailOf (.chan .a .presenceLost) t == some 2
        && (t.view .b).causes.peerDetached) = true := by decide +kernel

theorem test_attach :
    after (.attach .a) (withView .a (fun v => { v with st := .detached }) running) (fun t =>
      decide ((t.view .a).st = .standby) && (t.view .a).causes.attached && (t.view .b).causes.peerAttached) = true := by
  decide +kernel

theorem test_writeClockLost :
    after (.writeClockLost (shortField 12)) (gated .b .dataWrite targetB41 running) (fun t =>
      decide (t.relay.torn.map (·.cause) = [.presenceLost]) && decide ((t.view .b).st = .positioned)) = true := by
  decide +kernel

/-- The write still up at its check word is full, and the hold is completed. -/
theorem test_supplyWriteCut :
    after (.supplyWriteCutAtCheckWord (fullField 1#16))
        (let s := gated .a .dataWrite target57 running
         { s with watch := { s.watch with st := .supplyHold, writeEndWait := true } })
        (fun t => decide (t.relay.torn = []) && decide (t.arb.st = .halted) && decide ((t.view .a).st = .notReady))
      = true := by decide +kernel

/-- A gate still up at the next sector start is cut: E4 with a data write and 256 words. -/
theorem test_sectorStart_overrun :
    after (.sectorStart .sector ⟨[], true, List.replicate 256 7#16, false⟩) (gated .a .dataWrite target57 running)
      (fun t => detailOf (.chan .a .gateOverrun) t == some 0x4100 && decide ((t.view .a).st = .faulted)
        && decide (t.relay.torn.map (·.cause) = [.gateOverrun]) && decide (t.watch.sector = 1)) = true := by
  decide +kernel

/-- INDEX at sector 7 is out of step: E14 with the count. -/
theorem test_sectorStart_index :
    after (.sectorStart .indexSector .nothing) { running with watch := { running.watch with sector := 7 } } (fun t =>
      decide (t.watch.sector = 0) && detailOf (.sole .rotationFault) t == some 7) = true := by decide +kernel

/-- SECTOR with the synchronised mark clear leaves the count at 0. -/
theorem test_sectorStart_unsynchronised :
    after (.sectorStart .sector .nothing) { running with watch := { running.watch with sector := 7, sync := false } }
      (fun t => decide (t.watch.sector = 0) && !t.watch.sync) = true := by decide +kernel

theorem test_internalWriteGateRise :
    after .internalWriteGateRise (transfer .mapWrite (.window .f) .running running) (fun t =>
      t.drive.writeGate && decide (t.map.xfer = .writing .f)) = true := by decide +kernel

theorem test_checkError :
    after .checkError (gated .a .read target57 running) (fun t =>
      decide (t.relay.gate.map (·.checkError) = some true) && decide ((t.port .a).pulse = some .checkError)) = true := by
  decide +kernel

/-- A map with a word changed is refused by its check word: MISSING, E18 with reason 2. -/
theorem test_internalReadEnd :
    after (.internalReadEnd true ⟨0#16, 0#16, 0#16⟩ mapImage) (transfer .mapRead (.reading .f false) .readingMap running)
        (fun t => decide (t.map.mapState = .valid) && decide (t.watch.st = .readingLabel)) = true
      ∧ after (.internalReadEnd true ⟨0#16, 0#16, 0#16⟩ (mapImage.set 41 1#16))
          (transfer .mapRead (.reading .f false) .readingMap running)
        (fun t => decide (t.map.mapState = .missing) && detailOf (.sole .mapInvalid) t == some 2) = true := by
  decide +kernel

/-- The commit of a map of revision 42 alone: E19 with its revision. -/
theorem test_internalWriteEnd :
    after .internalWriteEnd
        (let s := transfer .mapWrite (.writing .f) .running running
         { s with map := { s.map with commit := some ⟨mapToWrite mapImage 41, none⟩ } })
        (fun t => detailOf (.sole .mapCommitted) t == some 42 && decide (t.map.commit = none)
          && (t.view .a).causes.mapChanged && decide (t.arb.st = .free)) = true := by decide +kernel

/-- The position is unknown from the acknowledgement of a CYLINDER order. -/
theorem test_driveOrderAcknowledge :
    after .driveOrderAcknowledge (offering (.cylinder 210) .seeking (some (.seek 210)) running) (fun t =>
      decide (t.pos.cyl = none) && decide (t.pos.ticks = some 0) && decide (t.drive.offered = none)) = true := by
  decide +kernel

/-- The peer's left-over HEAD order with the pending selection frees no gate; the owner's own does. -/
theorem test_driveOrderAcknowledge_head :
    (let s := owned .a target57 { running with relay := { running.relay with headPending := some ⟨.f, .h1⟩ } }
     after .driveOrderAcknowledge (offering (.head ⟨.f, .h1⟩ (.relay .b)) .idle none s)
         (fun t => decide (t.relay.headPending = some ⟨.f, .h1⟩)) = true
       ∧ after .driveOrderAcknowledge (offering (.head ⟨.f, .h1⟩ (.relay .a)) .idle none s)
         (fun t => decide (t.relay.headPending = none)) = true) := by decide +kernel

theorem test_driveAcknowledgeFall :
    after .driveAcknowledgeFall { running with drive := { running.drive with ack := true, waiting := [.recalibrate] } }
      (fun t => decide (t.drive.offered = some .recalibrate) && !t.drive.ack) = true := by decide +kernel

theorem test_orderWithdrawn :
    after (.orderWithdrawn .nothing)
        (let s := offering (.cylinder 210) .seeking (some (.seek 210)) running
         { s with drive := { s.drive with strobeTicks := 5 } })
        (fun t => decide (t.pos.st = .clearing) && decide (t.pos.last.map (·.outcome) = some .noAnswer)
          && decide (t.drive.offered = some .faultClear)) = true := by decide +kernel

/-- A HEAD order withdrawn while Positioner Control seeks for its claim: clearing, the seek held, no event. -/
theorem test_orderWithdrawn_head :
    after (.orderWithdrawn .nothing)
        (let s := requesting .a target57 (offering (.head ⟨.f, .h1⟩ (.relay .a)) .seeking (some (.seek 77)) running)
         { s with
           arb := { s.arb with st := .claimed .a .continuing }, drive := { s.drive with strobeTicks := 5 } })
        (fun t => decide (t.pos.st = .clearing) && decide (t.pos.held = some 77)
          && decide (t.arb.st = .claimed .a .continuing) && decide ((t.view .a).st = .requesting)
          && !t.ev.contact) = true := by decide +kernel

/-- The seek of B's claim reached. -/
theorem test_onCylinderRise :
    after .onCylinderRise
        (let s := stepping .seeking (some (.seek 240)) 40 (requesting .b targetB41 running)
         { s with arb := { s.arb with st := .claimed .b .fresh } })
        (fun t => decide (t.arb.st = .owned .b) && decide ((t.view .b).st = .positioned)
          && decide (t.pos.cyl = some 240)) = true := by decide +kernel

theorem test_seekErrorRise :
    after (.seekErrorRise .nothing)
        (let s := stepping .seeking (some (.seek 240)) 40 running
         { s with drive := { s.drive with onCylinder := false } })
        (fun t => decide (t.pos.st = .clearing) && detailOf (.sole .seekError) t == some 0) = true := by decide +kernel

/-- FAULT in RUNNING with an owner at rest: charged, STANDBY, clearing. -/
theorem test_driveFaultLine :
    after (.driveFaultLine .nothing) (owned .a target57 running) (fun t =>
      decide (t.arb.usage = ⟨90, 0⟩) && decide ((t.view .a).st = .standby) && decide (t.pos.st = .clearing)
        && detailOf (.sole .driveFaultLine) t == some 0) = true := by decide +kernel

/-- FAULT over the internal write of a commit: the words sent stand on WRITE DATA, E20 with failure 4. -/
theorem test_driveFaultLine_write :
    after (.driveFaultLine (shortField 2))
        (let s := transfer .mapWrite (.writing .f) .running running
         { s with map := { s.map with commit := some ⟨mapImage, none⟩ }, drive := { s.drive with writeGate := true } })
        (fun t => decide (t.drive.writeData = [0x5A3C#16, 41#16]) && detailOf (.sole .mapCommitFailed) t == some 4
          && decide (t.relay.torn.map (·.writer) = [.internal])) = true := by decide +kernel

theorem test_onCylinderFall :
    after (.onCylinderFall .nothing) running (fun t =>
      decide (t.pos.st = .clearing) && decide (t.pos.cyl = none) && detailOf (.sole .seekError) t == some 2) = true := by
  decide +kernel

/-- With an order outstanding the level changes alone. -/
theorem test_onCylinderFall_outstanding :
    after (.onCylinderFall .nothing) (offering (.head ⟨.f, .h1⟩ (.relay .a)) .idle none running) (fun t =>
      decide (t.pos.st = .idle) && decide (t.pos.cyl = some 77) && !t.drive.onCylinder) = true := by decide +kernel

theorem test_clearingStepSucceeded :
    after .clearingStepSucceeded (stepping .clearing none 9 running) (fun t =>
      decide (t.pos.st = .recalibrating) && decide (t.drive.offered = some .recalibrate)) = true := by decide +kernel

/-- The retry of 5.9 at 40441 has no answer: the closing clearing begins, E9 with the retry. -/
theorem test_seekNoAnswer :
    after .seekNoAnswer
        (let s := stepping .seeking (some (.seek 240)) 150 (requesting .b targetB41 running)
         { s with arb := { s.arb with st := .claimed .b .fresh }, pos := { s.pos with retry := true } })
        (fun t => detailOf (.sole .seekTimeout) t == some 1 && decide (t.pos.st = .clearing)
          && decide (t.pos.stage = .closing) && decide ((t.view .b).st = .requesting)) = true := by decide +kernel

/-- The closing recalibration of 5.9 at 40720: the failed claim reaches the claimant, uncharged. -/
theorem test_failedClaim :
    after .onCylinderRise
        (let s := stepping .recalibrating (some (.seek 240)) 9 (requesting .b targetB41 running)
         { s with
           arb := { s.arb with st := .claimed .b .fresh, stamp := some 900#32, held := 100 },
           pos := { s.pos with stage := .closing, retry := true } })
        (fun t => (t.view .b).seekError && decide ((t.view .b).st = .standby) && decide ((t.view .b).target = none)
          && decide (t.arb.st = .free) && decide (t.pos.cyl = some 0) && decide (t.arb.usage = ⟨0, 0⟩)) = true := by
  decide +kernel

theorem test_clearingTimeLimit :
    after .clearingTimeLimit (stepping .clearing none 50 running) (fun t =>
      decide (t.watch.st = .driveFault) && decide ((t.view .a).st = .notReady) && decide (t.arb.st = .halted)) = true := by
  decide +kernel

theorem test_recalibrationTimeLimit :
    after .recalibrationTimeLimit (stepping .recalibrating (some .calibration) 600 running) (fun t =>
      decide (t.watch.st = .driveFault)) = true
      ∧ after .recalibrationTimeLimit (stepping .recalibrating (some .calibration) 599 running) (fun t =>
        decide (t.watch.st = .running)) = true := by decide +kernel

theorem test_readyRise :
    after .readyRise State.reset (fun t => decide (t.watch.st = .spinningUp)) = true := by decide +kernel

theorem test_readyFall :
    after (.readyFall .nothing) running (fun t =>
      decide (t.watch.st = .spunDown) && t.watch.labelOwed && t.watch.priorValid
        && decide (t.map.labelState = .absent) && decide ((t.view .a).st = .notReady)) = true := by decide +kernel

theorem test_readyAccepted :
    after .readyAccepted
        { haltedIn .spinningUp with watch := { (haltedIn .spinningUp).watch with readyDebounce := 200 } }
        (fun t => decide (t.watch.st = .calibrating) && decide (t.pos.st = .recalibrating)) = true := by decide +kernel

theorem test_rotationLost :
    after (.rotationLost .nothing) { running with watch := { running.watch with gap := 5, sector := 7 } } (fun t =>
      decide (t.watch.st = .spunDown) && detailOf (.sole .rotationLost) t == some 7) = true := by decide +kernel

/-- In SUPPLY HOLD: the spin cycle is owed, READY no longer accepted, and no E15. -/
theorem test_rotationLost_hold :
    after (.rotationLost .nothing)
        { haltedIn .supplyHold with watch := { (haltedIn .supplyHold).watch with gap := 5, readyAccepted := true } }
        (fun t => decide (t.watch.st = .supplyHold) && t.watch.spinOwed && !t.watch.readyAccepted
          && decide (t.ev.record (.sole .rotationLost) = none)) = true := by decide +kernel

/-- E29 carries the state the warning was accepted in. -/
theorem test_supplyWarning :
    after (.supplyWarning .nothing) running (fun t =>
      decide (t.watch.st = .supplyHold) && detailOf (.sole .supplyWarning) t == some 5
        && decide (t.arb.st = .halted)) = true := by decide +kernel

theorem test_supplyClearAccepted :
    after .supplyClearAccepted
        { haltedIn .supplyHold with
          watch := { (haltedIn .supplyHold).watch with warnAccepted := true, clearDebounce := 100, readyAccepted := true } }
        (fun t => decide (t.watch.st = .calibrating) && decide (t.pos.request = some .calibration)) = true := by
  decide +kernel

/-- The release of 4.11 at 20415: A is charged 95, and B alone wins. -/
theorem test_releaseInterval :
    after .releaseInterval
        (let s := withView .a (fun v => { v with idle := 30 }) (requesting .b targetB41 (owned .a target130 running))
         { s with arb := { s.arb with held := 95, usage := ⟨1200, 710⟩ } })
        (fun t => decide (t.arb.usage = ⟨1295, 710⟩) && decide (t.arb.st = .claimed .b .fresh)
          && decide ((t.view .a).st = .standby)) = true := by decide +kernel

/-- The budget expiry of an owner at rest: PREEMPTED, E24 with the held time. -/
theorem test_budgetExpiry :
    after .budgetExpiry
        (let s := requesting .b targetB41 (owned .a target57 running)
         { s with arb := { s.arb with clock := 400, held := 801 } })
        (fun t => (t.view .a).causes.preempted && detailOf (.chan .a .budgetPreemption) t == some 801
          && decide (t.arb.usage = ⟨801, 0⟩)) = true := by decide +kernel

/-- The chain end of 7.9 at 62118: B's entries go and A is released. -/
theorem test_interlockChainEnd :
    after (.interlockChainEnd .b)
        (let s := deferredAt .a ⟨145, 225, .shared, false⟩
          (interlocked [entry .b 225 61985#32, entry .b 205 62038#32] none (some 62038#32) running)
         { s with uptime := 62088#32 })
        (fun t => decide (t.ilock.list = []) && decide (t.ilock.chain.b = none)
          && decide ((t.view .a).st = .requesting)) = true := by decide +kernel

theorem test_interlockAgedOut :
    after (.interlockAgedOut .f 210) (interlocked [entry .a 210 850#32, entry .a 211 900#32] (some 990#32) none running)
      (fun t => decide (t.ilock.list = [entry .a 211 900#32]) && detailOf (.sole .interlockAgedOut) t == some 3
        && decide (t.ilock.chain.a = some 990#32)) = true := by decide +kernel

/-- The yield of 7.9 at 62010: A gives up its entry on 205, and B owns the actuator that stands there. -/
theorem test_yield :
    after (.cylinderOrder .a 145#10 .nothing)
        (let s := deferredAt .b ⟨5, 205, .shared, false⟩ (owned .a ⟨125, 205, .shared, false⟩ running)
         interlocked [entry .b 225 985#32, entry .a 205 990#32] (some 990#32) (some 985#32) s)
        (fun t => decide ((t.view .a).st = .deferred) && decide (t.arb.st = .owned .b)
          && decide ((t.view .b).st = .positioned) && decide (t.ilock.list = [entry .b 225 985#32])
          && detailOf (.chan .a .interlockYield) t == some 1) = true := by decide +kernel

theorem test_pCommand :
    after (.pCommand 12) running (fun t => decide (t.line.page = 12) && decide (t.line.reply = some .ok)) = true
      ∧ after (.pCommand 13) running (fun t => decide (t.line.page = 0) && decide (t.line.reply = some .badPage)) = true := by
  decide +kernel

/-- Page 7's words after power-on: the record enables and the alarm enables of R173. -/
theorem test_rCommand :
    after (.rCommand 8#8 (Frame.read 8#8).chars) (onPage 7 running) (fun t => decide (t.line.reply = some (.value 0x14F9#16))) = true
      ∧ after (.rCommand 9#8 (Frame.read 9#8).chars) (onPage 7 running) (fun t => decide (t.line.reply = some .badIndex)) = true := by
  decide +kernel

/-- A read of the two uptime words across a carry; the frame buffer holds the small digit as it was received. -/
theorem test_rUptimeLow :
    after (.rUptimeLow [82#8, 32#8, 48#8, 99#8]) { running with uptime := 0x0001FFFF#32 } (fun t =>
      decide (t.line.reply = some (.value 0xFFFF#16)) && decide (t.line.latch = some 1#16)
        && decide (t.line.frame = [82#8, 32#8, 48#8, 99#8])) = true := by decide +kernel

theorem test_rUptimeHigh :
    after (.rUptimeHigh (Frame.read 13#8).chars) { running with uptime := 0x00020000#32, line := { running.line with latch := some 1#16 } } (fun t =>
      decide (t.line.reply = some (.value 1#16)) && decide (t.line.latch = none)) = true := by decide +kernel

/-- An alarm enable written over a set flag closes the contact. -/
theorem test_wEnableWord :
    after (.wEnableWord 6#8 1#16 (Frame.write 6#8 1#16).chars)
        (onPage 7 (raiseFor .a .unmappedSeek .absent 0 running))
        (fun t => t.ev.contact && t.ev.alarmEnable.a == 1#14) = true := by decide +kernel

theorem test_wStagedImage :
    after (.wStagedImage 2#8 15#16 (Frame.write 2#8 15#16).chars) (onPage 9 running) (fun t => imageWord t.map.stagedMap 2 == 15) = true := by
  decide +kernel

theorem test_wNotWritable :
    after (.wNotWritable 0#8 1#16 (Frame.write 0#8 1#16).chars) (onPage 7 running) (fun t => decide (t.line.reply = some .readOnly)) = true := by
  decide +kernel

theorem test_tCommand :
    after (.tCommand 0#8 (Frame.take 0#8).chars) (onPage 7 (raiseFor .a .tornSector .absent 5 running)) (fun t =>
      decide (t.line.reply = some (.value 0x0040#16)) && decide (t.ev.record (.chan .a .tornSector) = none)) = true := by
  decide +kernel

/-- A staged map with A's F4 of 100 cylinders from 240 is answered `?V 6`. -/
theorem test_cCommand :
    after .cCommand
        { running with map := { running.map with
            stagedMap := withCheckWord ((mapImage.set 26 100#16).set 27 240#16), stagedLabel := labelImage } }
        (fun t => decide (t.line.reply = some (.invalid 6)) && decide (t.map.commit = none)) = true := by decide +kernel

theorem test_uCommand :
    after .uCommand { running with arb := { running.arb with usage := ⟨5, 6⟩ } } (fun t =>
      decide (t.arb.usage = ⟨0, 0⟩)) = true := by decide +kernel

theorem test_kCommand :
    after .kCommand
        { running with relay := { running.relay with torn := [⟨⟨.f, 77, .h1, 12⟩, .chan .a, .gateOverrun, 50230#32⟩] } }
        (fun t => decide (t.relay.torn = [])) = true := by decide +kernel

theorem test_iCommand :
    after .iCommand running (fun t => decide (t.line.reply = some (.value 0x7420#16))) = true := by decide +kernel

/-- The reply to `X` is sent, and the part restarts: the restart count one more, the uptime kept. -/
theorem test_xCommand :
    after .xCommand running (fun t => after (.replySent .nothing) t (fun u =>
      u.line.restartCount == 1#16 && u.uptime == 1000#32 && decide ((u.view .a).st = .detached))) = true := by
  decide +kernel

theorem test_malformedFrame :
    after (.malformedFrame [⟨90#8, true⟩]) running (fun t => decide (t.line.reply = some .badFrame)) = true := by
  decide +kernel

theorem test_replySent :
    after (.replySent .nothing) { running with line := { running.line with reply := some .ok, frame := [73#8] } } (fun t =>
      decide (t.line = running.line)) = true := by decide +kernel

/-- A restart over a channel's write cut short and over a full mailbox write to an unrouted destination: E7 and E27 are
kept, the torn list is not. -/
theorem test_replySent_judges :
    after (.replySent (shortField 200))
        { gated .a .dataWrite target57 running with line := { running.line with reply := some .ok, restartDue := true } }
        (fun t => (t.ev.record (.chan .a .tornSector)).isSome && decide (t.relay.torn = [])
          && decide ((t.view .a).st = .detached)) = true
      ∧ after (.replySent (fullField 0x0209#16))
        { gated .a .dataWrite target200 running with line := { running.line with reply := some .ok, restartDue := true } }
        (fun t => detailOf (.chan .a .mailboxUnrouted) t == some 0x0209) = true := by decide +kernel

theorem test_writeProtectedChange :
    after (.writeProtectedChange true) running (fun t => t.drive.protF && !t.drive.protR) = true := by decide +kernel

theorem test_unpassedGateDrop :
    after (.unpassedGateDrop .a .write)
        (setPort .a { running.port .a with writeGate := true, gate := some .write } running)
        (fun t => decide (t.port .a = running.port .a)) = true := by decide +kernel

theorem test_presentRise :
    after (.presentRise .b) State.reset (fun t => (t.port .b).present && decide ((t.view .b).st = .detached)) = true := by
  decide +kernel

theorem test_supplyWarningInputClears :
    after .supplyWarningInputClears { running with warning := true } (fun t => !t.warning) = true := by decide +kernel

/-! ## Hypotheses that are met

For each statement with hypotheses, a state and operands that meet them, clause by clause. -/

/-- A running part with a command at the front of its queue. -/
def facing (i : Instr) (s : State) : State := { s with pending := [i] }

theorem witness_EmptyQueueStepIsOneTick :
    running.pending = [] ∧ (owned .a target57 running).arb.st = .owned .a
      ∧ (let s := withView .b (fun v => { v with st := .detached, debounce := 49 }) running
         (s.view .b).st = .detached ∧ (s.port .b).present = true ∧ 49 ≤ (s.view .b).debounce)
      ∧ (let s := stepping .seeking none 149 running
         s.pos.st = .seeking ∧ s.pos.ticks = some 149) := by decide +kernel

/-- A step that raises a flag whose alarm enable is set. -/
theorem witness_StepKeepsAlarmContact :
    let s := facing (.onCylinderFall .nothing) running
    (s.ev.contact = true ↔ ∃ f : Flag, (s.ev.record f).isSome = true ∧ s.ev.alarmEnable.get f = true)
      ∧ ∃ t, step s = .next t := by
  intro s
  refine ⟨?_, step_next s⟩
  rw [← EventUnit.alarmDue_iff, show s.ev.contact = s.ev.alarmDue by decide +kernel]

theorem witness_StepKeepsRanges :
    let s := facing .budgetExpiry (owned .a target57 running)
    UsageLaw s ∧ QueueLaw s ∧ PageLaw s ∧ CountLaw s ∧ ∃ t, step s = .next t := by
  intro s
  refine ⟨?_, ?_, ?_, ?_, step_next s⟩ <;>
    simp only [UsageLaw, QueueLaw, PageLaw, CountLaw, View.inRange] <;> decide +kernel

theorem witness_StepKeepsTornList :
    let s := facing (.gateDrop .a (shortField 3)) (gated .a .dataWrite target57 running)
    TornLaw s ∧ ∃ t, step s = .next t := by
  intro s
  refine ⟨?_, step_next s⟩
  simp only [TornLaw]
  decide +kernel

theorem witness_StepKeepsInterlockList :
    let s := facing (.gateDrop .a (fullField 1#16))
      (interlocked [entry .b 225 985#32] none (some 985#32) (gated .a .dataWrite target130 running))
    InterlockLaw s ∧ ∃ t, step s = .next t := by
  intro s
  refine ⟨?_, step_next s⟩
  simp only [InterlockLaw]
  decide +kernel

theorem witness_StepKeepsMailbox :
    let s := facing (.gateDrop .a (fullField 1#16)) (postedTo .a 5 (gated .a .read target200 running))
    MailboxLaw s ∧ NoticeLaw s ∧ ∃ t, step s = .next t := by
  intro s
  refine ⟨?_, ?_, step_next s⟩ <;> simp only [MailboxLaw, NoticeLaw] <;> decide +kernel

theorem witness_StepKeepsOwnership :
    let s := facing .budgetExpiry (requesting .b targetB41 (gated .a .read target57 running))
    (s.watch.st = .supplyHold → s.watch.writeEndWait = true → s.pending.head? ≠ some .supplyClearAccepted)
      ∧ Ownership s ∧ ∃ t, step s = .next t := by
  intro s
  refine ⟨by decide +kernel, ⟨?_, ?_, ?_, ⟨?_, ?_⟩, ?_, ?_, ?_, ?_, ?_⟩, step_next s⟩
  · simp only [OwnerLaw]; decide +kernel
  · simp only [RequestLaw]; decide +kernel
  · simp only [DeferralLaw]; decide +kernel
  · intro c; cases c <;> decide +kernel
  · decide +kernel
  · simp only [XferLaw]; decide +kernel
  · intro c; cases c <;> decide +kernel
  · intro h; exact absurd (by decide +kernel : s.watch.st = .running) h
  · decide +kernel
  · intro imgs h
    have e : s.map.commit = none := by decide +kernel
    simp [e] at h

/-! ### Orders -/

theorem witness_OrderHandshake :
    TakesOrders running .a ∧ (State.reset.view .a).st = .detached
      ∧ ((setPort .a { running.port .a with ack := true } running).port .a).ack = true := by decide +kernel

theorem witness_CylinderOrderMakesRequest :
    (∀ s ∈ [{ running with arb := { running.arb with st := .internal } },
        { running with arb := { running.arb with st := .halted } },
        { running with arb := { running.arb with st := .claimed .b .fresh } }],
      TakesOrders s .a ∧ (s.view .a).st = .standby ∧ Maps s .a .f 0 ⟨0, 20, .readWrite, true⟩
        ∧ heldBy s .b ⟨.f, 20⟩ = false
        ∧ (s.arb.st = .internal ∨ s.arb.st = .halted ∨ s.arb.st = .claimed .b .fresh))
      ∧ (let s := interlocked [entry .b 210 985#32] none (some 985#32) running
         TakesOrders s .a ∧ (s.view .a).st = .standby ∧ Maps s .a .f 130 target130
           ∧ heldBy s .b ⟨.f, 210⟩ = true ∧ (s.view .b).st ≠ .deferred)
      ∧ (let s := deferredAt .b ⟨5, 205, .shared, false⟩
          (interlocked [entry .b 210 985#32, entry .a 205 990#32] (some 990#32) (some 985#32) running)
         TakesOrders s .a ∧ (s.view .a).st = .standby ∧ Maps s .a .f 130 target130
           ∧ heldBy s .b ⟨.f, 210⟩ = true ∧ (s.view .b).st = .deferred ∧ blocked s .b = true
           ∧ s.arb.request.get .a = none ∧ Open (.chan .a .interlockYield) s) := by decide +kernel

/-- A in each of the three states, beside an arbiter in INTERNAL, a claim of its own with no seek held and with one, a
peer that owns the actuator one tick short of its release interval, and one for whom another waits already; order to
cylinder 210, let through and held by B; and logical cylinder 0. -/
theorem witness_CylinderOrderMakesRequest_states :
    let peerOwns := withView .b (fun v => { v with idle := 59 }) (owned .b targetB41 running)
    ∀ base ∈ [{ running with arb := { running.arb with st := .internal } },
        { running with arb := { running.arb with st := .claimed .a .continuing } },
        { running with arb := { running.arb with st := .claimed .a .fresh }, pos := { running.pos with held := some 77 } },
        peerOwns, withView .b (fun v => { v with idle := 60 })
          { peerOwns with arb := { peerOwns.arb with queue := [.mapRead] } }],
      (∀ s ∈ [viewIn .standby (some target57) .a base, requesting .a target57 base, deferredAt .a target57 base],
          TakesOrders s .a ∧ (s.view .a).st ∈ [ViewState.standby, .requesting, .deferred]
            ∧ Maps s .a .f 130 target130 ∧ Maps s .a .f 0 ⟨0, 20, .readWrite, true⟩
            ∧ heldBy s .b ⟨.f, 210⟩ = false ∧ heldBy s .b ⟨.f, 20⟩ = false
            ∧ (s.arb.st = .internal ∨ (s.arb.st = .claimed .a .continuing ∧ s.pos.held = none)
              ∨ (s.arb.st = .claimed .a .fresh ∧ s.pos.held = some 77)
              ∨ (s.arb.st = .owned (peer .a) ∧ (s.view .b).idle < (paramsOf s.map.activeMap .b).l)
              ∨ (s.arb.st = .owned (peer .a) ∧ Waits s (peer .a)))
            ∧ (let h := interlocked [entry .b 210 985#32] none (some 985#32) s
               heldBy h .b ⟨.f, 210⟩ = true ∧ (h.view .b).st ≠ .deferred)) := by decide +kernel

/-- The peer at its release interval, nobody waiting; a yield out of REQUESTING; and a claim whose seek is held. -/
theorem witness_CylinderOrderMakesRequest_ends :
    (let base := withView .b (fun v => { v with idle := 60 }) (owned .b targetB41 running)
     ∀ s ∈ [viewIn .standby none .a base, viewIn .deferred (some target57) .a base],
      TakesOrders s .a ∧ Maps s .a .f 130 target130 ∧ heldBy s .b ⟨.f, 210⟩ = false ∧ EndsGrantAtArrival s .a)
      ∧ (let s := requesting .a target57 (deferredAt .b ⟨5, 205, .shared, false⟩
          (interlocked [entry .b 210 985#32, entry .a 205 990#32] (some 990#32) (some 985#32) running))
         TakesOrders s .a ∧ (s.view .a).st = .requesting ∧ Maps s .a .f 130 target130
           ∧ heldBy s .b ⟨.f, 210⟩ = true ∧ (s.view .b).st = .deferred ∧ blocked s .b = true)
      ∧ (∀ k ∈ [ClaimKind.fresh, .continuing],
          let s := interlocked [entry .b 210 985#32] none (some 985#32) (requesting .a target57
            { running with arb := { running.arb with st := .claimed .a k }, pos := { running.pos with held := some 77 } })
          TakesOrders s .a ∧ (s.view .a).st = .requesting ∧ Maps s .a .f 130 target130 ∧ heldBy s .b ⟨.f, 210⟩ = true
            ∧ (s.view .b).st ≠ .deferred ∧ s.arb.st = .claimed .a k ∧ s.pos.held = some 77 ∧ ¬Waits s .a) := by
  decide +kernel

theorem witness_CylinderOrderAtFreeArbiter :
    TakesOrders running .a ∧ (running.view .a).st = .standby
      ∧ (let s := deferredAt .a target130 running
         TakesOrders s .a ∧ Maps s .a .f 57 target57 ∧ Maps s .a .f 0 ⟨0, 20, .readWrite, true⟩)
      ∧ (Maps running .a .f 57 target57 ∧ heldBy running .b ⟨.f, 77⟩ = false ∧ running.pos.cyl = some 77)
      ∧ (Maps running .a .f 130 target130 ∧ heldBy running .b ⟨.f, 210⟩ = false ∧ running.pos.cyl = some 77)
      ∧ running.arb.st = .free ∧ running.arb.queue = [] ∧ running.arb.request.get .b = none
      ∧ running.pos.st = .idle ∧ driveTroubled running = false := by decide +kernel

theorem witness_OrderThatFailsToTranslate :
    TakesOrders running .a ∧ (running.view .a).st = .standby ∧ usableVol running .f = true
      ∧ 407 < (408#10).toNat ∧ lookup (running.map.extents .a) .f 160 = none ∧ Open (.chan .a .unmappedSeek) running
      ∧ lookup (running.map.extents .a) .r 0 ≠ none
      ∧ (let s := viewIn .notReady none .a running
         TakesOrders s .a ∧ (s.view .a).st = .notReady)
      ∧ (let s := { running with map := { running.map with labelState := .valid, heldLabel := some .zero } }
         usableVol s .r = true ∧ lookup (s.map.extents .a) .r 0 = none)
      ∧ lookup (running.map.extents .a) .f 160 = none
      ∧ lookup (running.map.extents .a) .f 119 = some ⟨true, .f, 0, true, 0, 120, 20⟩
      ∧ lookup (running.map.extents .a) .f 120 = some ⟨true, .f, 2, false, 120, 40, 200⟩
      ∧ running.map.mapState = .valid ∧ running.map.labelState = .valid := by decide +kernel

theorem witness_OrderOfTheOwner :
    let s := owned .a target57 running
    TakesOrders s .a ∧ (s.view .a).st = .positioned
      ∧ (Maps s .a .f 57 target57 ∧ (s.view .a).target.map (·.physical) = some 77)
      ∧ (let r := owned .a ⟨0, 20, .readWrite, true⟩ running
         Maps r .a .f 0 ⟨0, 20, .readWrite, true⟩ ∧ (r.view .a).target.map (·.physical) = some 20)
      ∧ (Maps s .a .f 0 ⟨0, 20, .readWrite, true⟩ ∧ heldBy s .b ⟨.f, 20⟩ = false)
      ∧ (Maps s .a .f 130 target130 ∧ (s.view .a).target.map (·.physical) ≠ some 210
        ∧ heldBy s .b ⟨.f, 210⟩ = false ∧ s.arb.st = .owned .a ∧ s.arb.queue = [] ∧ s.arb.request.get .b = none) := by
  decide +kernel

/-- A re-seek of A beside an internal request, beside B's record with the actuator elsewhere and on B's cylinder, and of
B beside A past its wait limit and one tick short of it; and one as logical cylinder 0. -/
theorem witness_OrderOfTheOwner_waits :
    let s := owned .a target57 running
    let peerWaits := requesting .b targetB41 s
    Maps s .a .f 130 target130 ∧ Maps s .a .f 0 ⟨0, 20, .readWrite, true⟩
      ∧ (let r := { s with arb := { s.arb with queue := [.labelRead] } }
         Waits r .a ∧ r.arb.queue ≠ [] ∧ (r.view .a).target.map (·.physical) ≠ some 210)
      ∧ (∀ cyl ∈ [77, 240],
          let r := { peerWaits with pos := { peerWaits.pos with cyl := some cyl } }
          TakesOrders r .a ∧ (r.view .a).st = .positioned ∧ (r.view .a).target.map (·.physical) ≠ some 210
            ∧ heldBy r .b ⟨.f, 210⟩ = false ∧ r.arb.st = .owned .a ∧ Waits r .a ∧ r.arb.queue = []
            ∧ r.arb.request.get (peer .a) = some ⟨.f, 240⟩ ∧ r.map.mapState = .valid)
      ∧ (∀ wait ∈ [249, 250],
          let r := withView .a (fun v => { v with wait := wait })
            (requesting .a target57 (owned .b targetB41 running))
          Maps r .b .f 10 targetB10 ∧ Waits r .b ∧ r.arb.queue = [] ∧ r.arb.request.get (peer .b) = some ⟨.f, 77⟩
            ∧ (paramsOf r.map.activeMap .a).lw = 250) := by decide +kernel

theorem witness_HeadOrderTakesSelection :
    (∀ s ∈ [viewIn .notReady none .a running, running, viewIn .requesting (some target57) .a running,
        viewIn .deferred (some target57) .a running],
      TakesOrders s .a ∧ (headSel 1#10).vol = (s.view .a).sel.vol
        ∧ (s.view .a).st ∈ [ViewState.notReady, .standby, .requesting, .deferred])
      ∧ ((headSel 3#10).vol ≠ (running.view .a).sel.vol ∧ (running.view .a).target = none)
      ∧ (let s := owned .a target57 running
         TakesOrders s .a ∧ (s.view .a).st = .positioned ∧ s.relay.headPending = none
           ∧ s.pos.lastSel = some (headSel 0#10) ∧ s.pos.lastSel ≠ some (headSel 1#10)) := by decide +kernel

/-- A volume changed under a held target: unusable, and unmapped in each state. -/
theorem witness_HeadOrderTakesSelection_fails :
    (let s := viewIn .notReady (some target57) .a { running with map := { running.map with labelState := .absent } }
     TakesOrders s .a ∧ (s.view .a).target = some target57 ∧ (headSel 2#10).vol ≠ (s.view .a).sel.vol
       ∧ (s.view .a).st = .notReady ∧ usableVol s (headSel 2#10).vol = false)
      ∧ (∀ s ∈ [viewIn .standby (some target310) .a running, requesting .a target310 running,
          deferredAt .a target310 running, owned .a target310 running],
        TakesOrders s .a ∧ (s.view .a).target = some target310 ∧ (headSel 2#10).vol ≠ (s.view .a).sel.vol
          ∧ (s.view .a).st ∈ [ViewState.standby, .requesting, .deferred, .positioned]
          ∧ ((s.view .a).st ≠ .requesting → s.arb.request.get .a = none)
          ∧ ¬(s.arb.st = .owned .a ∧ s.arb.releasePending = true) ∧ Unmapped s .a (headSel 2#10).vol 310
          ∧ usableVol s (headSel 2#10).vol = true ∧ Open (.chan .a .unmappedSeek) s
          ∧ usableVol { s with map := { s.map with labelState := .unlabelled } } (headSel 2#10).vol = false) := by
  decide +kernel

/-- A's logical 57 on volume R. -/
def target57R : Target := ⟨57, 58, .readWrite, true⟩

/-- The same volume change to the cylinder the target names already. -/
theorem witness_HeadOrderTakesSelection_same :
    Maps running .a (headSel 2#10).vol 57 target57R ∧ target57R.physical ≠ target57.physical
      ∧ (∀ s ∈ [viewIn .standby (some target57R) .a running, requesting .a target57R running,
            deferredAt .a target57R running, owned .a target57R running],
          TakesOrders s .a ∧ (s.view .a).target = some target57R ∧ (headSel 2#10).vol ≠ (s.view .a).sel.vol
            ∧ s.relay.headPending = none ∧ s.pos.lastSel ≠ some (headSel 2#10)) := by decide +kernel

/-- The same volume change to another cylinder, free and held by the peer. -/
theorem witness_HeadOrderTakesSelection_moves :
    ∀ held ∈ [false, true],
      let base := interlocked (if held then [⟨.b, .r, 58, 990#32, 990#32, 1⟩] else []) none
        (if held then some 990#32 else none) { running with arb := { running.arb with st := .claimed .b .fresh } }
      (∀ s ∈ [viewIn .standby (some target57) .a base, requesting .a target57 base, deferredAt .a target57 base],
          (s.view .a).target = some target57 ∧ s.arb.st = .claimed (peer .a) .fresh
            ∧ heldBy s .b ⟨(headSel 2#10).vol, 58⟩ = held ∧ (s.view .b).st ≠ .deferred)
        ∧ (let s := owned .a target57 base
           (s.view .a).st = .positioned ∧ heldBy s .b ⟨(headSel 2#10).vol, 58⟩ = held ∧ s.arb.st = .owned .a
             ∧ s.arb.queue = [] ∧ s.arb.request.get .b = none)
        ∧ (let s := requesting .b targetB41 (owned .a target57 base)
           (s.view .a).st = .positioned ∧ heldBy s .b ⟨(headSel 2#10).vol, 58⟩ = held ∧ s.arb.st = .owned .a
             ∧ Waits s .a ∧ s.arb.request.get (peer .a) = some ⟨.f, 240⟩) := by decide +kernel

/-- The same beside a peer that owns the actuator, one tick short of its release interval and at it. -/
theorem witness_HeadOrderTakesSelection_peer :
    let base := owned .b targetB41 running
    (∀ s ∈ [viewIn .standby (some target57) .a base, requesting .a target57 base, deferredAt .a target57 base],
        let r := withView .b (fun v => { v with idle := 59 }) s
        (r.view .a).target = some target57 ∧ heldBy r .b ⟨(headSel 2#10).vol, 58⟩ = false
          ∧ r.arb.st = .owned (peer .a) ∧ (r.view .b).idle < (paramsOf r.map.activeMap .b).l)
      ∧ (∀ s ∈ [viewIn .standby (some target57) .a base, viewIn .deferred (some target57) .a base],
          let r := withView .b (fun v => { v with idle := 60 }) s
          (r.view .a).target = some target57 ∧ heldBy r .b ⟨(headSel 2#10).vol, 58⟩ = false
            ∧ EndsGrantAtArrival r .a) := by decide +kernel

theorem witness_FaultedUntilFaultClear :
    let s := viewIn .faulted (some target57) .a running
    TakesOrders s .a ∧ (s.view .a).st = .faulted ∧ usable s = true
      ∧ (let r := { s with watch := { s.watch with st := .spunDown } }
         (r.view .a).st = .faulted ∧ usable r = false ∧ r.arb.request.get .a = none)
      ∧ (running.view .a).st ≠ .faulted := by decide +kernel

theorem witness_ReportAnswersAndClearsCauses :
    TakesOrders running .a ∧ (let s := postedTo .a 23 running; TakesOrders s .a ∧ s.mbox.notice.get .a = [23]) := by
  decide +kernel

/-- A write cut short and full, and a read: the hypotheses of GateJudged, wherever a statement rests on it. -/
theorem witness_GateJudged :
    (let s := gated .a .dataWrite target130 running
     let g := gateOn .a .dataWrite target130
     s.relay.gate = some g ∧ g.kind ≠ .read ∧ s.map.xfer = .none ∧ Open (.chan .a .tornSector) s
       ∧ (s.relay.torn.length ≤ 4 ∧ (s.relay.torn.map (·.addr)).Nodup) ∧ (s.view (peer .a)).st ≠ .detached
       ∧ spanHas (s.map.extents (peer .a)) .f 210 (fun k => decide (k = .shared ∨ k = .mailbox)) = true)
      ∧ reachedCheckWord (shortField 255) = false ∧ reachedCheckWord (fullField 1#16) = true
      ∧ (gateOn .a .read target57).kind = .read ∧ ¬FullShared (gateOn .a .dataWrite target57) (fullField 1#16)
      ∧ ¬FullShared (gateOn .a .dataWrite target130) (shortField 255)
      ∧ FullShared (gateOn .a .dataWrite target130) (fullField 1#16) := by decide +kernel

theorem witness_GateCutFaultsView :
    let s := gated .a .dataWrite target57 running
    PlainGate s .a (gateOn .a .dataWrite target57) ∧ s.arb.request.get .a = none ∧ TakesOrders s .a
      ∧ s.map.xfer = .none ∧ Open (.chan .a .orderDuringGate) s ∧ Open (.chan .a .gateOverrun) s := by decide +kernel

/-! ### Gates -/

theorem witness_GateAtPositionedView :
    let s := owned .a target57 running
    (s.port .a).readGate = false ∧ (s.port .a).writeGate = false ∧ (s.view .a).st = .positioned
      ∧ (s.view .a).target = some target57 ∧ s.watch.st ≠ .supplyHold ∧ s.relay.headPending = none
      ∧ target57.cls ≠ .readOnly ∧ s.drive.prot .f = false ∧ target57.cls ≠ .mailbox ∧ target57.permit = true
      ∧ (let r := { s with relay := { s.relay with headPending := some ⟨.f, .h1⟩ } }
         r.relay.headPending.isSome = true)
      ∧ (let r := { s with watch := { s.watch with st := .supplyHold } }
         r.watch.st = .supplyHold) := by decide +kernel

/-- With no HEAD order at the drive port none is awaited. -/
theorem not_headAwaited {s : State} {c : Chan} (h : headAwaited s c = false) : ¬HeadAwaited s c := by
  rw [← headAwaited_iff, h]; exact Bool.false_ne_true

theorem witness_GateAtPositionedView_headAwaited :
    ¬HeadAwaited (owned .a target57 running) .a
      ∧ (let s := owned .a target57
          { running with drive := { running.drive with offered := some (.head ⟨.f, .h0⟩ (.relay .a)) } }
         HeadAwaited s .a ∧ s.relay.headPending = none ∧ s.watch.st ≠ .supplyHold) :=
  ⟨not_headAwaited (by decide +kernel), ⟨⟨.f, .h0⟩, .inl rfl⟩, by decide +kernel⟩

/-- A HEAD order of the channel left over from its ended grant holds its gate; one of the peer's does not (R32). -/
theorem test_left_over_head_order_holds_gate :
    ∀ c ∈ [Chan.a, .b],
      let s := owned .a target57
        { running with drive := { running.drive with offered := some (.head ⟨.f, .h0⟩ (.relay c)) } }
      after (.gateArrival .a .read 5) s (fun t =>
        decide ((t.view .a).st = if c = .a then .positioned else .transferring)
          && decide (t.drive.readGate = decide (c = .b))) = true := by decide +kernel

/-- One state for each of the five checks. -/
theorem witness_WriteSuppressed :
    (∀ s ∈ [owned .a target310 running,
        (let s := owned .a target57 running
         { s with drive := { s.drive with protF := true } }),
        (let s := owned .a target200 running
         withView .a (fun v => { v with sel := ⟨.f, .h1⟩ }) s),
        postedTo .b 0 (owned .a target200 running), owned .a target130 running],
      (s.port .a).readGate = false ∧ (s.port .a).writeGate = false ∧ (s.view .a).st = .positioned
        ∧ (s.view .a).target.isSome = true ∧ s.watch.st ≠ .supplyHold ∧ s.relay.headPending = none
        ∧ headAwaited s .a = false
        ∧ s.arb.request.get .a = none ∧ Open (.chan .a .protectedWrite) s ∧ Open (.chan .a .formatRefused) s)
      ∧ target310.cls = .readOnly
      ∧ (let s := owned .a target57 running
         ({ s with drive := { s.drive with protF := true } } : State).drive.prot .f = true)
      ∧ target200.cls = .mailbox ∧ (owned .a target200 running).drive.prot .f = false
      ∧ posted (postedTo .b 0 (owned .a target200 running)) 0 = true
      ∧ (postedTo .b 0 (owned .a target200 running)).watch.sector = 0
      ∧ (119 < 120 ∧ target130.cls = .shared ∧ target130.permit = false
        ∧ (owned .a target130 running).drive.prot .f = false) := by decide +kernel

theorem witness_GateWithoutPosition :
    (∀ s ∈ [viewIn .requesting (some target57) .a running, viewIn .deferred (some target57) .a running, running],
      (s.port .a).readGate = false ∧ (s.port .a).writeGate = false ∧ Open (.chan .a .gateWithoutPosition) s
        ∧ ((s.view .a).st = .requesting ∨ (s.view .a).st = .deferred
          ∨ ((s.view .a).st = .standby ∧ (s.view .a).target = none)))
      ∧ (let s := viewIn .standby (some target130) .a running
         (s.port .a).readGate = false ∧ (s.port .a).writeGate = false ∧ (s.view .a).st = .standby
           ∧ (s.view .a).target = some target130 ∧ Open (.chan .a .gateWithoutPosition) s
           ∧ heldBy s .b ⟨.f, 210⟩ = false ∧ ({ s with arb := { s.arb with st := .halted } } : State).arb.st = .halted
           ∧ (let r := interlocked [entry .b 210 985#32] none (some 985#32) s
              heldBy r .b ⟨.f, 210⟩ = true ∧ (r.view .b).st ≠ .deferred)) := by decide +kernel

/-- No arrival, the states that take none up, and a request taken at the peer's release interval and just short of it. -/
theorem witness_GateWithoutPosition_states :
    (let s := setPort .a { running.port .a with writeGate := true, gate := some .write } running
     ¬((s.port .a).readGate = false ∧ (s.port .a).writeGate = false))
      ∧ (∀ s ∈ [viewIn .detached none .a running, viewIn .notReady none .a running, viewIn .faulted none .a running],
          (s.port .a).readGate = false ∧ (s.port .a).writeGate = false
            ∧ (s.view .a).st ∈ [ViewState.detached, .notReady, .faulted])
      ∧ (let base := viewIn .standby (some target130) .a (owned .b targetB41 running)
         heldBy base .b ⟨.f, 210⟩ = false
           ∧ (let r := withView .b (fun v => { v with idle := 59 }) base
              r.arb.st = .owned (peer .a) ∧ (r.view .b).idle < (paramsOf r.map.activeMap .b).l)
           ∧ EndsGrantAtArrival (withView .b (fun v => { v with idle := 60 }) base) .a) := by decide +kernel

theorem witness_DropThatReportsNothing :
    (let s := gated .a .read target57 running
     PlainGate s .a (gateOn .a .read target57) ∧ (s.port .a).gate = some .read ∧ s.drive.waiting = []
       ∧ (gateOn .a .read target57).cls ≠ .mailbox)
      ∧ (let s := gated .a .read target200 running
         PlainGate s .a (gateOn .a .read target200) ∧ (s.port .a).gate = some .read ∧ s.drive.waiting = []
           ∧ reachedCheckWord (shortField 255) = false)
      ∧ (let s := setPort .a { running.port .a with writeGate := true, gate := some .write } running
         s.relay.gate.map (·.chan) ≠ some .a ∧ (s.port .a).gate = some .write ∧ (s.view .a).st ≠ .detached
           ∧ (s.port .a).gate ≠ some .read) := by decide +kernel

/-- The header words of R12: A's logical 57 stands on physical cylinder 77. -/
theorem test_header_words_replaced :
    let w : Carried := ⟨[0x1111, 0x2222, 0x3333], true, [5, 6], false⟩
    let g := gateOn .a .formatWrite target57
    readDataRelayed { g with kind := .read, inWindow := true } 57 w = [57, 0x2222, 0x3333, 5, 6]
      ∧ readDataRelayed { g with kind := .read } 57 w = [5, 6]
      ∧ writeDataSent g w = [77, 0x2222, 0x3333, 5, 6]
      ∧ writeDataSent { g with kind := .dataWrite } w = [5, 6]
      ∧ writeDataSent g { w with header := [] } = [5, 6] := by decide +kernel

theorem witness_WriteJudgedAtItsDrop :
    (let s := gated .a .dataWrite target130 running
     PlainGate s .a (gateOn .a .dataWrite target130) ∧ (s.view .b).st ≠ .detached
       ∧ spanHas (s.map.extents .b) .f 210 (fun k => decide (k = .shared ∨ k = .mailbox)) = true
       ∧ Open (.chan .a .tornSector) s ∧ s.relay.torn.length ≤ 4 ∧ (s.relay.torn.map (·.addr)).Nodup)
      ∧ reachedCheckWord (shortField 255) = false ∧ reachedCheckWord (fullField 1#16) = true
      ∧ (let s := gated .a .formatWrite target57 running
         PlainGate s .a (gateOn .a .formatWrite target57) ∧ (gateOn .a .formatWrite target57).cls = .readWrite) := by
  decide +kernel

/-- The four rows: a new entry, an entry extended, the peer's cylinder, a fifth entry. -/
theorem witness_FullSharedWriteMakesInterlock :
    let s := gated .a .dataWrite target130 running
    let g := gateOn .a .dataWrite target130
    PlainGate s .a g ∧ reachedCheckWord (fullField 1#16) = true ∧ g.cls = .shared ∧ s.arb.request.get .a = none
      ∧ (heldBy s .a ⟨.f, 210⟩ = false ∧ heldBy s .b ⟨.f, 210⟩ = false ∧ (entriesOf s .a).length < 4)
      ∧ (let r := interlocked [entry .a 210 985#32] (some 985#32) none s
         PlainGate r .a g ∧ heldBy r .a ⟨.f, 210⟩ = true)
      ∧ (let r := interlocked [entry .b 210 985#32] none (some 985#32) s
         PlainGate r .a g ∧ heldBy r .a ⟨.f, 210⟩ = false ∧ heldBy r .b ⟨.f, 210⟩ = true ∧ entriesOf r .a = [])
      ∧ (let r := interlocked [entry .b 210 985#32, entry .a 211 985#32] (some 985#32) (some 985#32) s
         PlainGate r .a g ∧ heldBy r .a ⟨.f, 210⟩ = false ∧ heldBy r .b ⟨.f, 210⟩ = true ∧ entriesOf r .a ≠ [])
      ∧ (let rest := [entry .a 201 985#32, entry .a 202 985#32, entry .a 203 985#32]
         let r := interlocked (entry .a 200 985#32 :: rest) (some 985#32) none s
         PlainGate r .a g ∧ heldBy r .a ⟨.f, 210⟩ = false ∧ heldBy r .b ⟨.f, 210⟩ = false
           ∧ entriesOf r .a = entry .a 200 985#32 :: rest ∧ rest.length = 3
           ∧ Open (.chan .a .interlockOverflow) r) := by decide +kernel

/-- A peer REQUESTING the place of the new entry, and another. -/
theorem witness_FullSharedWriteMakesInterlock_peer :
    ∀ p ∈ [(targetB10, some (⟨.f, 210⟩ : Place)), (targetB41, some ⟨.f, 240⟩)],
      let r := requesting .b p.1 (gated .a .dataWrite target130 running)
      PlainGate r .a (gateOn .a .dataWrite target130) ∧ (r.view .b).st = .requesting ∧ (r.view .b).place = p.2 := by
  decide +kernel

/-- A whole data field is full, and begins with its first word. -/
theorem fullField_full (first : Word) :
    reachedCheckWord (fullField first) = true ∧ (fullField first).data.head? = some first := by
  refine ⟨?_, rfl⟩
  simp only [reachedCheckWord, fullField, List.length_cons, List.length_replicate]
  rfl

/-- Routing words for PEER with a gap, for KEEP, and unrouted; they stand in whole fields by fullField_full. -/
theorem witness_FullMailboxWritePosts :
    let s := { gated .a .dataWrite target200 running with
      mbox := { Mailbox.initial with expected := ⟨some 4#8, none⟩ } }
    let g := gateOn .a .dataWrite target200
    PlainGate s .a g ∧ g.cls = .mailbox ∧ g.addr.head = .h0 ∧ posted s g.addr.sector = false
      ∧ (0x0109#16 : Word).extractLsb' 8 8 = 0x01#8 ∧ s.mbox.expected.get .a = some 4#8
      ∧ (0x0109#16 : Word).extractLsb' 0 8 ≠ 4#8 ∧ (0x0009#16 : Word).extractLsb' 8 8 ≠ 0x01#8
      ∧ (0x0209#16 : Word).extractLsb' 8 8 ≠ 0x00#8 ∧ (0x0209#16 : Word).extractLsb' 8 8 ≠ 0x01#8
      ∧ Open (.chan .a .mailboxSequenceGap) s ∧ Open (.chan .a .mailboxUnrouted) s := by decide +kernel

theorem witness_FullMailboxReadConsumes :
    let s := postedTo .a 5 (gated .a .read target200 running)
    let g := gateOn .a .read target200
    PlainGate s .a g ∧ g.kind = .read ∧ reachedCheckWord (fullField 1#16) = true ∧ g.checkError = false
      ∧ g.cls = .mailbox ∧ g.addr.head = .h0 ∧ posted s g.addr.sector = true
      ∧ (s.mbox.notice.get .a).contains g.addr.sector = true := by decide +kernel

theorem witness_WriteCutInItsCourse :
    let s := gated .a .dataWrite target57 running
    let g := gateOn .a .dataWrite target57
    PlainGate s .a g ∧ g.kind ≠ .read ∧ dataFieldStarted (shortField 0) = true
      ∧ reachedCheckWord (shortField 0) = false
      ∧ (let r := { s with watch := { s.watch with st := .supplyHold, writeEndWait := true } }
         r.relay.gate = some g ∧ g.chan = .a ∧ reachedCheckWord (fullField 1#16) = true
           ∧ r.watch.st = .supplyHold ∧ r.watch.writeEndWait = true) := by decide +kernel

theorem witness_CheckErrorBelongsToRead :
    ((gated .a .read target57 running).relay.gate = some (gateOn .a .read target57))
      ∧ (let s := transfer .mapRead (.reading .f false) .readingMap running
         s.relay.gate = none ∧ s.map.xfer = .reading .f false)
      ∧ (running.relay.gate = none ∧ ∀ v e, running.map.xfer ≠ .reading v e)
      ∧ (gated .a .dataWrite target57 running).relay.gate.map (·.kind) = some .dataWrite :=
  ⟨by decide +kernel, by decide +kernel, ⟨rfl, fun _ _ => nofun⟩, by decide +kernel⟩

/-! ### Presence and rotation -/

theorem witness_PresenceLostDetaches :
    (running.view .a).st ≠ .detached ∧ ((running.view .a).st ≠ .requesting → running.arb.request.get .a = none)
      ∧ (running.view .b).st ≠ .detached ∧ Open (.chan .a .presenceLost) running
      ∧ (let s := requesting .a target57 running
         (s.view .a).st = .requesting)
      ∧ (let s := owned .a target57 running
         s.arb.st = .owned .a ∧ (s.view .a).st = .positioned ∧ s.relay.gate = none)
      ∧ (let s := gated .a .dataWrite target57 running
         let s := { s with arb := { s.arb with releasePending := true } }
         s.arb.st = .owned .a ∧ (s.view .a).st = .transferring ∧ (s.view (peer .a)).st ≠ .deferred
           ∧ s.relay.gate = some (gateOn .a .dataWrite target57) ∧ s.arb.releasePending = true
           ∧ Open (.chan .a .budgetPreemption) s) := by decide +kernel

theorem witness_PresentLineAndAttach :
    let s := withView .a (fun v => { v with st := .detached }) running
    (s.view .a).st = .detached ∧ (s.port .a).present = true ∧ (s.view .a).debounce = 50 := by decide +kernel

/-- Counts that agree and counts out of step, synchronised and not, at both ends of the rotation. -/
theorem witness_SectorStartCountsAndIsRelayed :
    running.relay.gate = none ∧ running.map.xfer = .none ∧ running.watch.st ≠ .supplyHold
      ∧ running.watch.sync = true ∧ running.watch.sector ≠ 23 ∧ Open (.sole .rotationFault) running
      ∧ (let s := { running with watch := { running.watch with sector := 23 } }
         s.relay.gate = none ∧ s.watch.sector = 23 ∧ s.watch.sync = true)
      ∧ (let s := { running with watch := { running.watch with sync := false } }
         s.relay.gate = none ∧ s.watch.sync = false)
      ∧ (State.reset.view .a).st = .detached ∧ (running.view .a).st ≠ .detached ∧ (running.view .a).st ≠ .notReady := by
  decide +kernel

theorem witness_SpinDownTakesDriveDown :
    (∀ st ∈ [WatchState.calibrating, .readingMap, .readingLabel, .running],
      let s := { running with watch := { running.watch with st := st } }
      s.watch.readyAccepted = true ∧ s.watch.st ∈ [WatchState.calibrating, .readingMap, .readingLabel, .running])
      ∧ (let s := { running with watch := { running.watch with st := .driveFault } }
         s.watch.readyAccepted = true ∧ s.watch.st = .driveFault ∧ s.watch.warnAccepted = false)
      ∧ (let s := { running with watch := { running.watch with gap := 5 } }
         s.watch.gap = 5 ∧ s.watch.st ∈ [WatchState.readingMap, .readingLabel, .running]
           ∧ Open (.sole .rotationLost) s ∧ s.relay.gate = none)
      ∧ (let s := gated .a .dataWrite target57 running
         s.watch.readyAccepted = true ∧ s.watch.st = .running ∧ s.map.xfer = .none
           ∧ s.relay.gate = some (gateOn .a .dataWrite target57)) := by decide +kernel

/-! ### Internal transfers -/

theorem witness_InternalGateRises :
    (transfer .mapWrite (.window .f) .running running).map.xfer = .window .f
      ∧ (∀ k ∈ [InternalKind.mapWrite, .mapRead],
          let s := transfer k (.awaitSector .f) .running running
          s.map.xfer = .awaitSector .f ∧ s.relay.gate = none ∧ s.watch.st ≠ .supplyHold)
      ∧ (transfer .mapWrite (.awaitSector .f) .running running).arb.queue.head? = some .mapWrite
      ∧ (transfer .mapRead (.awaitSector .f) .running running).arb.queue.head? ≠ some .mapWrite := by decide +kernel

theorem witness_MapReadOutcome :
    let s := transfer .mapRead (.reading .f false) .readingMap running
    s.map.xfer = .reading .f false ∧ s.watch.st = .readingMap ∧ s.arb.st = .internal ∧ s.arb.queue = [.mapRead]
      ∧ validateMap mapImage = none ∧ validateMap .zero = some 1 ∧ Open (.sole .mapInvalid) s
      ∧ (0x8000#16 : Word) ≠ 0x0000#16 := by decide +kernel

theorem witness_LabelReadOutcome :
    let s := withView .a (fun v => { v with st := .notReady }) (transfer .labelRead (.reading .r false) .readingLabel running)
    s.map.xfer = .reading .r false ∧ s.watch.st = .readingLabel ∧ s.arb.st = .internal ∧ s.arb.queue = [.labelRead]
      ∧ s.arb.request = ⟨none, none⟩ ∧ s.map.mapState = .valid ∧ (s.view .a).st = .notReady
      ∧ validateLabel labelImage = none ∧ validateLabel .zero = some 1 ∧ Open (.sole .labelInvalid) s := by
  decide +kernel

/-- The same label read again, another, none of the valid ones, and the first read. -/
theorem witness_LabelReadOutcome_cartridge :
    running.watch.labelReadDone = true ∧ running.map.heldLabel = some labelImage
      ∧ (∃ old, running.map.heldLabel = some old
        ∧ (labelImage.toList.drop 1).take 33 = (old.toList.drop 1).take 33)
      ∧ running.watch.priorValid = false
      ∧ ({ running with watch := { running.watch with priorValid := true } } : State).watch.priorValid = true
      ∧ State.reset.watch.labelReadDone = false ∧ (running.view .a).st ≠ .detached
      ∧ Open (.sole .cartridgeChanged) running :=
  ⟨rfl, rfl, ⟨labelImage, rfl, rfl⟩, rfl, rfl, rfl, by decide +kernel, by decide +kernel⟩

/-- A part at the end of a sector write of a commit. -/
def committing (v : Vol) (label : Option Image) : State :=
  transfer .mapWrite (.writing v) .running
    { running with map := { running.map with commit := some ⟨mapImage, label⟩ } }

/-- The last sector of a commit of a map alone, of a map and a label, and the map sector of the latter. -/
theorem witness_CommitCompletes (v : Vol) (label : Option Image) :
    (committing v label).map.xfer = .writing v ∧ (committing v label).map.commit = some ⟨mapImage, label⟩
      ∧ (committing v label).watch.st ≠ .supplyHold ∧ (committing v label).arb.st = .internal
      ∧ (committing v label).arb.queue = [.mapWrite] ∧ Open (.sole .mapCommitted) (committing v label)
      ∧ (some labelImage : Option Image).isSome = true :=
  ⟨rfl, rfl, nofun, rfl, rfl, ⟨rfl, by
    rw [show (committing v label).ev = .initial from rfl]
    decide +kernel⟩, rfl⟩

/-- Views with a target at the activation, the mailbox on the same cylinder and not, an interlock kept. -/
theorem witness_CommitCompletes_views :
    (∀ s ∈ [viewIn .standby (some target57) .a (committing .f none), requesting .a target57 (committing .f none),
        deferredAt .a target57 (committing .f none), viewIn .positioned (some target57) .a (committing .f none),
        viewIn .faulted (some target57) .a (committing .f none)],
      s.watch.st = .running ∧ (s.view .a).target = some target57
        ∧ (s.view .a).st ∈ [ViewState.standby, .requesting, .deferred, .positioned, .faulted]
        ∧ ((s.view .a).st ≠ .requesting → s.arb.request.get .a = none)
        ∧ after .internalWriteEnd s (fun u =>
          decide (Maps u .a .f 57 target57) && decide (u.map.mailboxCylinder = s.map.mailboxCylinder)) = true)
      ∧ (let s := viewIn .standby (some ⟨160, 5, .shared, false⟩) .a (committing .f none)
         (s.view .a).sel.vol = .f ∧ after .internalWriteEnd s (fun u => decide (Unmapped u .a .f 160)) = true)
      ∧ (let s := viewIn .notReady none .b (committing .f none)
         let s := { s with map := { s.map with mapState := .missing } }
         s.map.mapState = .missing ∧ (s.view .b).st = .notReady ∧ s.arb.request.get .b = none
           ∧ after .internalWriteEnd s (fun u => decide (u.map.mailboxCylinder ≠ s.map.mailboxCylinder)) = true)
      ∧ (let s := interlocked [entry .a 210 900#32] (some 960#32) none (committing .f none)
         (∀ c ∈ [Chan.a, .b], (s.view c).st ≠ .requesting ∧ (s.view c).st ≠ .deferred)
           ∧ after .internalWriteEnd s (fun u =>
              spanHas (u.map.extents .a) .f 210 (fun k => decide (k = .shared))) = true
           ∧ ((s.ilock.list.map Entry.place).Nodup ∧ (entriesOf s .a).length ≤ 4 ∧ (entriesOf s .b).length ≤ 4
             ∧ s.ilock.chain.a.isSome = !(entriesOf s .a).isEmpty ∧ s.ilock.chain.b.isSome = !(entriesOf s .b).isEmpty)
           ∧ (s.uptime - 900#32).toNat < imageWord mapImage 11 ∧ (s.uptime - 960#32).toNat < imageWord mapImage 10) := by
  decide +kernel

/-! ### The drive port and the drive's answers -/

theorem witness_DriveOrderHandshake :
    (offering (.cylinder 210) .seeking none running).drive.offered = some (.cylinder 210)
      ∧ (offering .recalibrate .recalibrating none running).drive.offered = some .recalibrate
      ∧ (let s := offering .faultClear .clearing none running
         s.drive.offered = some .faultClear ∧ driveTroubled s = false ∧ s.pos.st = .clearing
           ∧ driveTroubled { s with drive := { s.drive with fault := true } } = true)
      ∧ (offering (.head ⟨.r, .h1⟩ (.relay .b)) .idle none running).drive.offered = some (.head ⟨.r, .h1⟩ (.relay .b))
      ∧ (let s := offering (.head ⟨.r, .h0⟩ .mapStore) .idle none (transfer .labelRead (.headOrder .r) .readingLabel running)
         s.drive.offered = some (.head ⟨.r, .h0⟩ .mapStore) ∧ s.map.xfer = .headOrder .r)
      ∧ (running.drive.offered = none ∧ running.drive.waiting = [])
      ∧ (let s := { running with drive := { running.drive with waiting := [.cylinder 407] } }
         s.drive.offered = none ∧ s.drive.waiting = [.cylinder 407] ∧ s.drive.readGate = false
           ∧ s.drive.writeGate = false
           ∧ ({ s with drive := { s.drive with readGate := true } } : State).drive.readGate = true)
      ∧ (let s := owned .b targetB41 { running with relay := { running.relay with headPending := some ⟨.r, .h1⟩ } }
         s.relay.headPending = some ⟨.r, .h1⟩ ∧ s.arb.st = .owned .b ∧ s.drive.waiting = []
           ∧ s.arb.st ≠ .owned .a) := by decide +kernel

theorem witness_OrderWithdrawn :
    (let s := offering (.cylinder 210) .seeking (some (.seek 210))
        { running with drive := { running.drive with strobeTicks := 5 } }
     s.drive.strobeTicks = 5 ∧ s.watch.st ≠ .supplyHold ∧ s.drive.offered = some (.cylinder 210) ∧ s.pos.st = .seeking
       ∧ s.pos.request = some (.seek 210) ∧ s.pos.retry = false ∧ Open (.sole .seekTimeout) s)
      ∧ (∀ p ∈ [(DriveOrder.faultClear, PosState.clearing), (.recalibrate, .recalibrating)],
          let s := offering p.1 p.2 none { running with drive := { running.drive with strobeTicks := 5 } }
          s.drive.strobeTicks = 5 ∧ s.watch.st ≠ .supplyHold ∧ s.drive.offered = some p.1 ∧ s.pos.st = p.2
            ∧ Open (.sole .recalibrationFailed) s) := by decide +kernel

/-- A HEAD order: of the owner, of a claim, and of the Map Store in both readings. -/
theorem witness_OrderWithdrawn_head :
    (let s := offering (.head ⟨.f, .h1⟩ (.relay .a)) .idle none
        (owned .a target57 { running with drive := { running.drive with strobeTicks := 5 } })
     s.drive.strobeTicks = 5 ∧ s.watch.st = .running ∧ s.drive.offered = some (.head ⟨.f, .h1⟩ (.relay .a))
       ∧ s.relay.gate = none ∧ s.map.xfer = .none ∧ s.arb.st = .owned .a ∧ (s.view .a).st = .positioned
       ∧ s.arb.request.get .a = none)
      ∧ (let s := requesting .a target57 (offering (.head ⟨.f, .h1⟩ (.relay .b)) .seeking (some (.seek 77)) running)
         let s := { s with arb := { s.arb with st := .claimed .a .fresh } }
         s.arb.st = .claimed .a .fresh ∧ s.arb.request.get .a = some ⟨.f, 77⟩)
      ∧ (∀ p ∈ [(WatchState.readingMap, InternalKind.mapRead, Vol.f), (.readingLabel, .labelRead, .r)],
          let s := offering (.head ⟨p.2.2, .h0⟩ .mapStore) .idle none
            (transfer p.2.1 (.headOrder p.2.2) p.1 { running with drive := { running.drive with strobeTicks := 5 } })
          s.drive.strobeTicks = 5 ∧ s.drive.offered = some (.head ⟨p.2.2, .h0⟩ .mapStore) ∧ s.watch.st = p.1
            ∧ driveTroubled s = false
            ∧ driveTroubled { s with drive := { s.drive with seekError := true } } = true) := by decide +kernel

/-- The claim as asked for, its target changed, and withdrawn. -/
theorem witness_SeekReachedGivesGrant :
    (∀ n ∈ [240, 239],
      let r := stepping .seeking (some (.seek n)) 40 (requesting .b targetB41 running)
      let s := { r with arb := { r.arb with st := .claimed .b .continuing } }
      s.pos.st = .seeking ∧ s.pos.ticks.isSome = true ∧ s.pos.request = some (.seek n) ∧ s.drive.seekError = false
        ∧ s.arb.st = .claimed .b .continuing ∧ s.arb.request.get .b = some ⟨.f, 240⟩ ∧ s.drive.fault = false)
      ∧ (let r := stepping .seeking (some (.seek 240)) 40 running
         let s := { r with arb := { r.arb with st := .claimed .b .continuing } }
         s.arb.request.get .b = none ∧ s.arb.request.get .a = none ∧ s.arb.queue = []) := by decide +kernel

theorem witness_StepsOfACalibration :
    (stepping .clearing none 1 running).pos.ticks.isSome = true ∧ (stepping .clearing none 1 running).pos.st = .clearing
      ∧ (∀ owed ∈ [(true, true), (false, true), (false, false)],
          let s := stepping .recalibrating (some .calibration) 1
            { haltedIn .calibrating with
              watch := { (haltedIn .calibrating).watch with mapOwed := owed.1, labelOwed := owed.2 } }
          s.pos.ticks.isSome = true ∧ s.pos.st = .recalibrating ∧ s.pos.request = some .calibration
            ∧ s.drive.seekError = false ∧ s.watch.st = .calibrating ∧ s.arb.st = .halted ∧ s.arb.queue = []
            ∧ s.arb.request = ⟨none, none⟩ ∧ s.watch.mapOwed = owed.1 ∧ s.watch.labelOwed = owed.2) := by decide +kernel

/-- The recalibration of a recovery and of a preparation, toward cylinder 240 and 0; of a closing; of none. -/
theorem witness_StepsOfACalibration_seek :
    (∀ n ∈ [240, 0], ∀ stage ∈ [Stage.recovery, .preparation, .closing],
      let r := stepping .recalibrating (some (.seek n)) 1 (requesting .b ⟨41, n, .readWrite, true⟩ running)
      let s := { r with arb := { r.arb with st := .claimed .b .fresh }, pos := { r.pos with stage := stage } }
      s.pos.ticks.isSome = true ∧ s.pos.st = .recalibrating ∧ s.drive.seekError = false
        ∧ s.pos.request = some (.seek n) ∧ s.pos.stage = stage ∧ s.arb.st = .claimed .b .fresh
        ∧ s.arb.request.get .b = some ⟨.f, n⟩ ∧ s.arb.request.get .a = none ∧ s.arb.queue = [])
      ∧ (let s := stepping .recalibrating none 1 { running with pos := { running.pos with held := some 1 } }
         s.pos.st = .recalibrating ∧ s.pos.request = none ∧ s.pos.held = some 1 ∧ s.drive.fault = false)
      ∧ (let s := stepping .recalibrating none 1 running
         s.pos.request = none ∧ s.pos.held = none) := by decide +kernel

theorem witness_FailedAttemptBeginsRecovery :
    ∀ retry ∈ [false, true],
      let r := stepping .seeking (some (.seek 210)) 150 { running with drive := { running.drive with onCylinder := false } }
      let s := { r with pos := { r.pos with retry := retry } }
      s.pos.st = .seeking ∧ s.pos.request = some (.seek 210) ∧ s.pos.retry = retry ∧ s.pos.ticks = some 150
        ∧ s.pos.ticks.isSome = true ∧ s.drive.onCylinder = false ∧ s.watch.st = .running
        ∧ Open (.sole .seekTimeout) s ∧ Open (.sole .seekError) s ∧ Open (.sole .driveFaultLine) s := by decide +kernel

theorem witness_FailedStepGivesDriveUp :
    (let s := stepping .clearing none 50 running
     s.pos.st = .clearing ∧ s.pos.ticks = some 50 ∧ Open (.sole .recalibrationFailed) s)
      ∧ (let s := stepping .recalibrating none 600 running
         s.pos.st = .recalibrating ∧ s.pos.ticks = some 600)
      ∧ (let s := stepping .recalibrating none 0 { running with drive := { running.drive with onCylinder := false } }
         s.pos.st = .recalibrating ∧ s.pos.ticks.isSome = true ∧ s.drive.onCylinder = false)
      ∧ (let s := stepping .recalibrating none 0 { running with drive := { running.drive with seekError := true } }
         s.pos.st = .recalibrating ∧ s.pos.ticks.isSome = true ∧ s.drive.seekError = true
           ∧ Open (.sole .positionerFault) s)
      ∧ (∀ st ∈ [PosState.seeking, .recalibrating], ∀ retry ∈ [false, true], ∀ level ∈ [false, true],
          let s := stepping st (some (.seek 77)) 0
            { running with drive := { running.drive with seekError := level, onCylinder := !level } }
          let s := { s with pos := { s.pos with retry := retry } }
          s.pos.st = st ∧ s.pos.ticks.isSome = true ∧ s.pos.retry = retry
            ∧ (s.drive.seekError = true ∨ s.drive.onCylinder = true)) := by decide +kernel

theorem witness_DriveFaultWhileRunning :
    (let s := owned .a target57 running
     s.watch.st = .running ∧ s.pos.st = .idle ∧ s.arb.st = .owned .a ∧ s.relay.gate = none ∧ s.map.xfer = .none
       ∧ (s.view .a).st = .positioned ∧ s.arb.request.get .a = none ∧ Open (.sole .driveFaultLine) s
       ∧ Open (.sole .seekError) s ∧ s.drive.offered = none ∧ s.drive.waiting = [])
      ∧ reachedCheckWord (shortField 255) = false
      ∧ (let s := offering (.head ⟨.f, .h1⟩ (.relay .a)) .idle none running
         s.watch.st = .running ∧ s.pos.st = .idle ∧ s.drive.offered ≠ none)
      ∧ (let s := { running with drive := { running.drive with waiting := [.head ⟨.f, .h1⟩ (.relay .a)] } }
         s.pos.st = .idle ∧ s.drive.waiting ≠ [])
      ∧ (let s := gated .a .dataWrite target57 running
         s.watch.st = .running ∧ s.pos.st = .idle ∧ s.relay.gate = some (gateOn .a .dataWrite target57)
           ∧ s.map.xfer = .none ∧ s.arb.st = .owned .a ∧ (s.view .a).st = .transferring
           ∧ s.arb.request.get .a = none) := by decide +kernel

/-- The write of a commit; its other hypotheses are those of witness_CommitCompletes. -/
theorem witness_DriveFaultWhileRunning_write :
    (committing .f none).pos.st = .idle ∧ (committing .f none).relay.gate = none
      ∧ (committing .f none).drive.offered = none ∧ Open (.sole .mapCommitFailed) (committing .f none) :=
  ⟨rfl, rfl, rfl, rfl, by decide +kernel⟩

theorem witness_LevelsChangeAlone :
    running.pos.lastSel = some ⟨.f, .h0⟩
      ∧ ({ running with pos := { running.pos with lastSel := some ⟨.r, .h1⟩ } } : State).pos.lastSel = some ⟨.r, .h1⟩
      ∧ State.reset.pos.lastSel = none ∧ State.reset.watch.st = .spunDown ∧ running.watch.st ≠ .spunDown
      ∧ (haltedIn .spinningUp).watch.st = .spinningUp := by decide +kernel

/-! ### Readiness and supply -/

theorem witness_ReadyAcceptedAsksCalibration :
    ∀ st ∈ [WatchState.spunDown, .spinningUp],
      let s := { haltedIn st with watch := { (haltedIn st).watch with readyDebounce := 200 } }
      s.drive.ready = true ∧ s.watch.readyAccepted = false ∧ s.watch.readyDebounce = 200
        ∧ (s.watch.st = .spunDown ∨ s.watch.st = .spinningUp) ∧ s.pos.st = .halted ∧ s.drive.fault = false
        ∧ s.drive.seekError = false
        ∧ ({ s with drive := { s.drive with fault := true } } : State).drive.fault = true := by decide +kernel

theorem witness_SupplyHoldBeginsAndEnds :
    (running.watch.warnAccepted = false ∧ running.watch.st ≠ .supplyHold ∧ running.watch.st ≠ .driveFault
      ∧ Open (.sole .supplyWarning) running ∧ running.relay.gate = none ∧ running.drive.readGate = false
      ∧ running.drive.writeGate = false)
      ∧ (let s := gated .a .dataWrite target57 running
         s.relay.gate = some (gateOn .a .dataWrite target57) ∧ s.drive.writeGate = true)
      ∧ (let s := { running with drive := { running.drive with readGate := true } }
         s.relay.gate = none ∧ s.drive.readGate = true)
      ∧ (∀ ready ∈ [true, false],
          let s := { haltedIn .supplyHold with watch := { (haltedIn .supplyHold).watch with
            warnAccepted := true, clearDebounce := 100, readyAccepted := ready } }
          s.watch.warnAccepted = true ∧ s.warning = false ∧ s.watch.clearDebounce = 100 ∧ s.watch.st = .supplyHold
            ∧ s.watch.readyAccepted = ready ∧ s.pos.st = .halted)
      ∧ (let s := gated .a .read target57 running
         PlainGate s .a (gateOn .a .read target57) ∧ (gateOn .a .read target57).kind = .read
           ∧ s.watch.warnAccepted = false)
      ∧ (∀ wait ∈ [true, false],
          let s := { haltedIn .supplyHold with watch := { (haltedIn .supplyHold).watch with
            gap := 5, readyAccepted := true, writeEndWait := wait } }
          s.watch.st = .supplyHold ∧ s.watch.readyAccepted = true ∧ s.watch.gap = 5 ∧ s.watch.writeEndWait = wait
            ∧ s.relay.gate = none)
      ∧ (let s := gated .a .dataWrite target57 running
         let s := { s with watch := { s.watch with st := .supplyHold, gap := 5, writeEndWait := true } }
         s.watch.st = .supplyHold ∧ s.watch.readyAccepted = true ∧ s.map.xfer = .none
           ∧ s.relay.gate = some (gateOn .a .dataWrite target57))
      ∧ (haltedIn .spunDown).watch.st = .spunDown ∧ (haltedIn .calibrating).watch.readyAccepted = false := by
  decide +kernel

/-! ### Arbitration and interlocks -/

/-- Both channels requesting at a FREE arbiter, with these waits. -/
def bothRequesting (a b : Nat) : State :=
  withView .a (fun v => { v with wait := a })
    (withView .b (fun v => { v with wait := b }) (requesting .a target57 (requesting .b targetB41 running)))

theorem witness_UsageComparisonNamesWinner :
    let s := bothRequesting 249 10
    s.arb.st = .free ∧ s.arb.queue = [] ∧ s.arb.request = ⟨some ⟨.f, 77⟩, some ⟨.f, 240⟩⟩ ∧ s.map.mapState = .valid
      ∧ (∀ c, ¬((paramsOf s.map.activeMap c).lw ≠ 0 ∧ (paramsOf s.map.activeMap c).lw ≤ (s.view c).wait))
      ∧ s.arb.usage.a ≤ 32767 ∧ s.arb.usage.b ≤ 32767 ∧ (paramsOf s.map.activeMap .a).w ≤ 15
      ∧ (paramsOf s.map.activeMap .b).w ≤ 15 := by
  refine ⟨by decide +kernel, by decide +kernel, by decide +kernel, by decide +kernel, ?_, by decide +kernel⟩
  intro c
  cases c <;> decide +kernel

/-- A past its limit of 250 alone; both past theirs with a longer wait; both with equal waits. -/
theorem witness_WaitLimitNamesWinner :
    (∀ s ∈ [bothRequesting 250 65535],
      s.arb.st = .free ∧ s.arb.queue = [] ∧ s.arb.request = ⟨some ⟨.f, 77⟩, some ⟨.f, 240⟩⟩ ∧ s.map.mapState = .valid
        ∧ (paramsOf s.map.activeMap .a).lw ≠ 0 ∧ (paramsOf s.map.activeMap .a).lw ≤ (s.view .a).wait
        ∧ (paramsOf s.map.activeMap .b).lw = 0 ∧ Open (.chan .a .waitLimitGrant) s)
      ∧ (∀ waits ∈ [(60, 59), (70, 69), (70, 70)],
          let r := bothRequesting waits.1 waits.2
          let s := { r with
            map := { r.map with activeMap := (mapImage.set 5 60#16).set 9 60#16 }, arb := { r.arb with gLast := .b } }
          (paramsOf s.map.activeMap .a).lw ≠ 0 ∧ (paramsOf s.map.activeMap .a).lw ≤ (s.view .a).wait
            ∧ ((s.view .b).wait < (paramsOf s.map.activeMap .b).lw ∨ (s.view .b).wait < (s.view .a).wait
              ∨ ((s.view .b).wait = (s.view .a).wait ∧ s.arb.gLast = peer .a))) := by decide +kernel

theorem witness_GrantEndsForWaitingPeer :
    let r := requesting .b targetB41 (owned .a target57 running)
    let s := withView .a (fun v => { v with idle := 30 }) { r with arb := { r.arb with clock := 400 } }
    s.arb.st = .owned .a ∧ s.arb.request.get .b = some ⟨.f, 240⟩ ∧ (s.view .a).st = .positioned ∧ s.arb.queue = []
      ∧ s.arb.request.get .a = none ∧ s.map.mapState = .valid ∧ (paramsOf s.map.activeMap .a).l ≤ (s.view .a).idle
      ∧ s.arb.budget ≤ s.arb.clock ∧ s.arb.releasePending = false ∧ Open (.chan .a .budgetPreemption) s
      ∧ s.pos.cyl ≠ some 240 ∧ ({ s with pos := { s.pos with cyl := some 240 } } : State).pos.cyl = some 240
      ∧ (let u := requesting .b targetB41 (gated .a .read target57 running)
         let u := { u with arb := { u.arb with clock := 400 } }
         u.arb.st = .owned .a ∧ (u.view .a).st = .transferring ∧ u.arb.budget ≤ u.arb.clock
           ∧ u.arb.releasePending = false) := by decide +kernel

/-- A release-pending grant at its gate's drop: beside a waiting peer, and where a full SHARED write defers that peer. -/
theorem witness_GrantEndsForWaitingPeer_marked :
    ∀ p ∈ [(GateKind.read, target57, targetB41), (.dataWrite, target130, targetB10)],
      let u := requesting .b p.2.2 (gated .a p.1 p.2.1 running)
      let u := { u with arb := { u.arb with releasePending := true } }
      u.arb.st = .owned .a ∧ u.arb.request.get (peer .a) = some ⟨.f, p.2.2.physical⟩
        ∧ u.relay.gate = some (gateOn .a p.1 p.2.1) ∧ (u.view .a).st = .transferring ∧ u.arb.releasePending = true
        ∧ u.watch.st ≠ .supplyHold ∧ u.arb.queue = [] ∧ u.arb.request.get .a = none ∧ u.map.mapState = .valid
        ∧ Open (.chan .a .budgetPreemption) u ∧ heldBy u .a ⟨.f, p.2.1.physical⟩ = false
        ∧ heldBy u .b ⟨.f, p.2.1.physical⟩ = false ∧ (u.view .b).st = .requesting
        ∧ ((u.view .b).place = some ⟨.f, p.2.1.physical⟩ ↔ p.1 = .dataWrite) := by decide +kernel

/-- Sums of 32767 and 32768, and one past 65535. -/
theorem witness_ChargeSaturatesThenHalves :
    (∀ p ∈ [(32767, 0), (32767, 1), (32767, 65535)], p.1 ≤ 32767)
      ∧ 32767 + 0 < 32768 ∧ 32768 ≤ 32767 + 1 ∧ 65535 < 32767 + 65535 := by decide

theorem witness_InterlocksEnd :
    let s := interlocked [entry .a 210 900#32, entry .b 211 950#32] (some 920#32) (some 950#32)
      (deferredAt .b ⟨10, 210, .shared, false⟩ running)
    s.map.mapState = .valid ∧ s.ilock.chain.get .a = some 920#32
      ∧ imageWord s.map.activeMap 10 ≤ (s.uptime - 920#32).toNat
      ∧ (∀ x ∈ s.ilock.list, (s.uptime - x.first).toNat < imageWord s.map.activeMap 11)
      ∧ (s.view .b).st = .deferred
      ∧ ((s.ilock.list.map Entry.place).Nodup ∧ (entriesOf s .a).length ≤ 4 ∧ (entriesOf s .b).length ≤ 4
        ∧ s.ilock.chain.a.isSome = !(entriesOf s .a).isEmpty ∧ s.ilock.chain.b.isSome = !(entriesOf s .b).isEmpty)
      ∧ (let e := entry .a 210 850#32
         let r := interlocked [e] (some 920#32) none running
         e ∈ r.ilock.list ∧ imageWord r.map.activeMap 11 ≤ (r.uptime - e.first).toNat
           ∧ Open (.sole .interlockAgedOut) r ∧ (r.view .b).st ≠ .deferred)
      ∧ (∀ cyl ∈ [210, 211],
          let e := entry .a 210 850#32
          let r := interlocked [e, entry .a 211 900#32] (some 920#32) none
            (deferredAt .b ⟨10, cyl, .shared, false⟩ running)
          e ∈ r.ilock.list ∧ imageWord r.map.activeMap 11 ≤ (r.uptime - e.first).toNat
            ∧ (r.view (peer e.holder)).st = .deferred ∧ (r.view (peer e.holder)).place = some ⟨.f, cyl⟩
            ∧ heldBy r .a ⟨.f, cyl⟩ = true
            ∧ ((r.ilock.list.map Entry.place).Nodup ∧ (entriesOf r .a).length ≤ 4 ∧ (entriesOf r .b).length ≤ 4
              ∧ r.ilock.chain.a.isSome = !(entriesOf r .a).isEmpty
              ∧ r.ilock.chain.b.isSome = !(entriesOf r .b).isEmpty)) := by decide +kernel

/-! ### The maintenance line -/

/-- A part on page 7, free to answer: the hypotheses of SimpleFramesAnswered, UsageCommandZeroesCounts (whose last
clause is met as in witness_UsageComparisonNamesWinner), ReadFrameAnswered and TakeClearsFlagsItShows, clause by
clause. -/
theorem witness_MaintenanceFrames :
    (onPage 7 running).line.reply = none ∧ (onPage 7 running).line.page = 7 ∧ (12 : Nat) ≤ 12 ∧ (12 : Nat) < 13
      ∧ pageLength 7 ≤ (9#8).toNat ∧ (8#8).toNat < pageLength 7 ∧ (3 ≤ (3#8).toNat ∧ (8#8).toNat < 9)
      ∧ ((2#8).toNat < 3 ∧ (2#8).toNat < pageLength 7) ∧ running.line.page = 0 ∧ running.arb.held ≤ 65535 := by
  decide +kernel

/-- Pages 9 and 11, with a commit in flight and without, and an index beyond a short page. -/
theorem witness_WriteFrameAnswered :
    (∀ n ∈ [9, 11], (onPage n running).line.page = n ∧ (onPage n running).line.reply = none
      ∧ (onPage n running).map.commit = none
      ∧ (let s := onPage n { running with map := { running.map with commit := some ⟨mapImage, none⟩ } }
         s.line.page = n ∧ s.map.commit.isSome = true))
      ∧ pageLength (onPage 3 running).line.page ≤ (5#8).toNat
      ∧ ((onPage 10 running).line.page ≠ 9 ∧ (onPage 10 running).line.page ≠ 11
        ∧ (255#8).toNat < pageLength (onPage 10 running).line.page) := by decide +kernel

/-- A part with a staged map, the label staged as it is held. -/
def staged (m : Image) (s : State) : State := { s with map := { s.map with stagedMap := m, stagedLabel := labelImage } }

theorem witness_CommitFrameJudged :
    (let s := { running with map := { running.map with commit := some ⟨mapImage, none⟩ } }
     s.line.reply = none ∧ s.map.commit.isSome = true)
      ∧ (State.reset.line.reply = none ∧ State.reset.map.commit = none ∧ State.reset.watch.st ≠ .running)
      ∧ (let s := staged .zero running
         s.map.commit = none ∧ s.watch.st = .running ∧ validateStaged s.map = some 1)
      ∧ (let s := staged mapImage running
         s.map.commit = none ∧ s.watch.st = .running ∧ validateStaged s.map = none ∧ s.arb.queue.contains .mapWrite = false
           ∧ s.arb.queue.length < 2)
      ∧ (let s := staged mapImage { running with arb := { running.arb with queue := [.mapRead] } }
         s.arb.queue.contains .mapWrite = false ∧ s.arb.queue.length < 2)
      ∧ (let s := staged mapImage { running with arb := { running.arb with queue := [.labelRead, .mapRead] } }
         s.watch.st = .running ∧ validateStaged s.map = none ∧ s.arb.queue.contains .mapWrite = false
           ∧ 2 ≤ s.arb.queue.length ∧ Open (.sole .mapCommitFailed) s) := by decide +kernel

/-- A label staged that differs from the held one, with the label VALID, and one staged that does not. -/
theorem witness_CommitFrameJudged_label :
    (staged mapImage running).map.labelState = .valid
      ∧ (staged mapImage running).map.stagedLabel = (staged mapImage running).map.heldLabel.getD .zero
      ∧ imageWord labelImage 1 ≠ imageWord (running.map.heldLabel.getD .zero |>.set 1 0#16) 1
      ∧ State.reset.map.labelState ≠ .valid :=
  ⟨rfl, rfl, by decide +kernel, nofun⟩

theorem witness_MalformedFrameAndReplyEnd :
    running.line.reply = none
      ∧ (∀ due ∈ [false, true],
          let s := { running with line := { running.line with reply := some .ok, restartDue := due } }
          s.line.reply.isSome = true ∧ s.line.restartDue = due ∧ s.relay.gate = none ∧ s.map.xfer = .none)
      ∧ reachedCheckWord (shortField 255) = false ∧ reachedCheckWord (fullField 1#16) = true
      ∧ (∀ t ∈ [target57, target130, target200],
          let s := { gated .a .dataWrite t running with
            line := { running.line with reply := some .ok, restartDue := true } }
          PlainGate s .a (gateOn .a .dataWrite t) ∧ s.line.restartDue = true ∧ s.map.xfer = .none
            ∧ Open (.chan .a .tornSector) s ∧ Open (.chan .a .mailboxUnrouted) s
            ∧ Open (.chan .a .mailboxSequenceGap) s ∧ Open (.chan .a .interlockOverflow) s ∧ posted s 5 = false) := by
  decide +kernel

/-- A detached view, and each other kind of view whose levels differ. -/
theorem witness_PortLevelsFollowView :
    (State.reset.view .a).st = .detached ∧ (running.view .a).st ≠ .detached
      ∧ portLevels (owned .a target57 running) .a = ⟨true, true, false, false, false, false⟩
      ∧ portLevels (viewIn .faulted (some target310) .a running) .a = ⟨true, false, false, true, true, false⟩ := by
  decide +kernel

end Sys2Proof.Tests
end

section
/-! What stands at the ports: the levels of a channel port, the handshake of its orders, power-on, and the drive lines
that change alone. -/

namespace Sys2Proof.Machine

/-! ## The levels of a channel port -/

/-- ATTENTION is high exactly while some cause is present (R42). -/
theorem Causes.attention_iff (k : Causes) : k.attention = true ↔ k ≠ .empty := by
  obtain ⟨mailbox, cartridge, detached, attached, map, torn, preempted, att⟩ := k
  simp only [Causes.attention, Causes.empty, Bool.or_eq_true, ne_eq, Causes.mk.injEq, Bool.eq_false_iff]
  tauto

theorem usable_iff (s : State) : usable s = true ↔ s.watch.st = .running ∧ s.map.mapState = .valid := by
  simp [usable]

/-- Volume F is usable with the drive, R with a VALID label besides (R19). -/
theorem usableVol_iff (s : State) (v : Vol) :
    usableVol s v = true ↔
      (s.watch.st = .running ∧ s.map.mapState = .valid) ∧ (v = .r → s.map.labelState = .valid) := by
  cases v <;> simp [usableVol, usable_iff]

theorem View.targetIs_iff (v : View) (k : ExtClass) : v.targetIs k = true ↔ ∃ t, v.target = some t ∧ t.cls = k := by
  cases h : v.target <;> simp [View.targetIs, h]

/-- When WRITE PROTECTED is high at a view that is not DETACHED (R21). -/
theorem writeProtectedLevel_iff (s : State) (v : View) :
    writeProtectedLevel s v = true ↔
      (∃ t, v.target = some t ∧ (t.cls = .readOnly ∨ (t.cls = .mailbox ∧ v.sel.head = .h1)))
        ∨ (if v.sel.vol = .f then s.drive.protF else s.drive.protR) = true ∨ v.slotProt = true := by
  have hprot : s.drive.prot v.sel.vol = (if v.sel.vol = .f then s.drive.protF else s.drive.protR) := by
    cases v.sel.vol <;> rfl
  simp only [writeProtectedLevel, Bool.or_eq_true, Bool.and_eq_true, decide_eq_true_eq, View.targetIs_iff, hprot]
  cases v.target <;> simp [or_assoc]

theorem portLevels_detached {s : State} {c : Chan} (h : (s.view c).st = .detached) : portLevels s c = .inactive :=
  if_pos h

/-- Settles O60: the six levels are computed from the view, one after the other. -/
theorem portLevelsFollowView : Obligations.PortLevelsFollowView := by
  intro c s
  refine ⟨portLevels_detached, fun h => ?_⟩
  have hp : portLevels s c =
      { ready := decide ((s.view c).st ≠ .notReady) && usableVol s (s.view c).sel.vol,
        onCylinder := decide ((s.view c).st = .positioned ∨ (s.view c).st = .transferring),
        seekError := (s.view c).seekError, fault := decide ((s.view c).st = .faulted),
        writeProtected := writeProtectedLevel s (s.view c), attention := (s.view c).causes.attention } := if_neg h
  rw [hp]
  refine ⟨?ready, decide_eq_true_iff, decide_eq_true_iff, rfl, writeProtectedLevel_iff s _, Causes.attention_iff _⟩
  case ready => simp [usableVol_iff]

/-! ## Orders at a channel port -/

/-- An order at a DETACHED view, or one that comes while ORDER ACKNOWLEDGE is high, raises ORDER STROBE alone (R2, R3). -/
theorem orderArrives_withheld {c : Chan} {s : State} (h : (s.view c).st = .detached ∨ (s.port c).ack = true)
    (b : Bool) (f : State → State) :
    orderArrives c b f s = setPort c { s.port c with strobe := true } s := by
  have hw : ((s.port c).ack || decide ((s.view c).st = .detached)) = true := by
    rcases h with h | h <;> simp [h]
  simp [orderArrives, hw]

/-- An order without an effect of its own, where it is taken, is acknowledged and sets the idle count to 0 (R4, R44). -/
theorem orderArrives_id {c : Chan} {s : State} (h : TakesOrders s c) :
    orderArrives c false id s = orderDone c (s.view c) s := by
  simp [orderArrives, orderDone, idleToZero, h.1, h.2, setView_setPort]

/-- Settles O11: every order at a port goes through `orderArrives`. -/
theorem orderHandshake : Obligations.OrderHandshake := by
  intro c value bus code w s
  refine ⟨fun h => ?taken, fun h i hi => ?withheld, rfl, rfl, rfl, rfl, rfl, rfl, fun h1 h2 h3 => ?unknown, rfl⟩
  case taken =>
    exact ⟨congrArg Host.Outcome.next (orderArrives_id h), congrArg Host.Outcome.next (orderArrives_id h)⟩
  case withheld =>
    have hn : ∀ b f, Host.Outcome.next (φ := Fault) (ρ := Refusal) (orderArrives c b f s)
        = .next (setPort c { s.port c with strobe := true } s) :=
      fun b f => congrArg Host.Outcome.next (orderArrives_withheld h b f)
    simp only [List.mem_cons, List.not_mem_nil, or_false] at hi
    rcases hi with rfl | rfl | rfl | rfl | rfl | rfl | rfl <;> exact hn _ _
  case unknown => simp [orderOnLines, controlOnBus, h1, h2, h3]

/-! ## Power-on -/

/-- E29 with the power-on detail, stamped 0, is what power-on does to the Event Unit (R141, R160; log 47). -/
theorem occurrence_powerOn : EventUnit.initial.occurrence (.sole .supplyWarning) .powerOn = .poweredOn := by
  decide +kernel

/-- POWER_ON leaves every block at its initial values, with E29 recorded (R141, R160). -/
theorem exec_powerOn (lines : InputLines) (s : State) :
    exec (.powerOn lines) s = .next (State.initialised lines .poweredOn 0#32 0#16 s.free s.pending) := by
  rw [← occurrence_powerOn]
  rfl

theorem poweredOn_record (f : Flag) :
    EventUnit.poweredOn.record f = if f = .sole .supplyWarning then some .powerOn else none := by
  rcases f with ⟨c, e⟩ | e
  · cases c <;> cases e <;> rfl
  · cases e <;> rfl

theorem poweredOn_recordEnable (f : Flag) : EventUnit.poweredOn.recordEnable.get f = true := by
  rcases f with ⟨c, e⟩ | e
  · cases c <;> cases e <;> rfl
  · cases e <;> rfl

/-- The alarm enables of R160. -/
theorem poweredOn_alarmEnable (f : Flag) :
    EventUnit.poweredOn.alarmEnable.get f = decide (f ∈
      [SoleEvent.tornListOverflow, .positionerFault, .recalibrationFailed, .driveFaultLine, .rotationFault,
        .rotationLost, .mapInvalid, .mapCommitFailed].map Flag.sole) := by
  rcases f with ⟨c, e⟩ | e
  · cases c <;> cases e <;> rfl
  · cases e <;> rfl

theorem initialised_posted (lines : InputLines) (ev : EventUnit) (t : Stamp) (n : Word) (d : Nat) (q : List Instr)
    (k : Fin 24) : posted (State.initialised lines ev t n d q) k = false := by
  simp [posted, State.initialised, Mailbox.initial]

/-- Settles O3: the initial values of each block, read off. -/
theorem powerOnSetsEveryBlock : Obligations.PowerOnSetsEveryBlock := by
  intro lines s
  have hview : ∀ c, (State.initialised lines .poweredOn 0#32 0#16 s.free s.pending).view c = .initial := by
    intro c; cases c <;> rfl
  have hport : ∀ c, let p := (State.initialised lines .poweredOn 0#32 0#16 s.free s.pending).port c
      p.ack = false ∧ p.returnBus = 0#16 ∧ p.pulse = none ∧ p.readData = [] := by
    intro c; cases c <;> exact ⟨rfl, rfl, rfl, rfl⟩
  have hrecord : ∀ f, (EventUnit.poweredOn.record f).isSome = decide (f = .sole .supplyWarning) := by
    intro f
    rw [poweredOn_record]
    by_cases hf : f = .sole .supplyWarning <;> simp [hf]
  exact ⟨_, exec_powerOn lines s, hview,
    -- the Map Store, the arbiter, Positioner Control, the drive port
    rfl, rfl, rfl, rfl, rfl, rfl, rfl,
    rfl, rfl, rfl, rfl, rfl, rfl, rfl, rfl, rfl, rfl,
    rfl, rfl, rfl, rfl, rfl, rfl, rfl,
    rfl, rfl, rfl, rfl, rfl, rfl, rfl, rfl,
    -- the channel ports and the input lines
    fun c => ⟨portLevels_detached (by rw [hview]; rfl), hport c⟩, rfl,
    -- the relay, the Interlock Unit, the mailbox
    rfl, rfl, rfl, rfl, rfl, rfl, initialised_posted _ _ _ _ _ _, rfl, rfl,
    -- Drive Watch
    rfl, rfl, rfl, rfl, rfl, rfl, rfl, rfl, rfl, rfl, rfl, rfl, rfl,
    -- the Event Unit, the maintenance line, the uptime
    hrecord, rfl, rfl, poweredOn_recordEnable, poweredOn_alarmEnable, rfl,
    rfl, rfl, rfl, rfl, rfl, rfl, rfl⟩

/-! ## CHECK ERROR, and levels alone -/

/-- Settles O29: by the gate that is up. -/
theorem checkErrorBelongsToRead : Obligations.CheckErrorBelongsToRead := by
  intro s
  refine ⟨fun g hg hk => ?_, fun v e hg hx => ?_, fun hg hx => ?_⟩
  · simp [exec, execCheckError, hg, hk]
  · simp [exec, execCheckError, hg, hx, setXfer]
  · cases hgate : s.relay.gate with
    | some g => simp [exec, execCheckError, hgate, hg g hgate]
    | none =>
      have hno := hx hgate
      cases hxfer : s.map.xfer <;> simp_all [exec, execCheckError]

/-- Settles O45: by the volume last ordered, and by Drive Watch's state. -/
theorem levelsChangeAlone : Obligations.LevelsChangeAlone := by
  intro level w s
  refine ⟨fun h hs => ?_, fun h hs => ?_, fun hs => ?_, fun hw => ?_, fun hw => ?_, fun hw => ?_, rfl⟩
  · simp [exec, execWriteProtectedChange, hs, setProt]
  · simp [exec, execWriteProtectedChange, hs, setProt]
  · simp [exec, execWriteProtectedChange, hs]
  · simp [exec, execReadyRise, hw, setWatchState]
  · simp [exec, execReadyRise, hw]
  · simp [exec, execReadyFall, hw, readyLost, setWatchState]

end Sys2Proof.Machine
end

section
/-! The order handshake at the drive port (R13): offers, acknowledgements, ORDER SELECT and ORDER BUS. -/

namespace Sys2Proof.Machine

/-! ## The drive port -/

theorem not_gateUp_iff (s : State) : gateUp s = false ↔ s.drive.readGate = false ∧ s.drive.writeGate = false := by
  simp [gateUp]

theorem gateUp_iff (s : State) : gateUp s = true ↔ s.drive.readGate = true ∨ s.drive.writeGate = true := by
  simp [gateUp]

/-- An order asked for stays so when the next one is offered (R13). -/
theorem OrderAsked.offerNext {o : DriveOrder} {s : State} (h : OrderAsked o s) : OrderAsked o (offerNext s) := by
  unfold Machine.offerNext
  split
  · exact h
  · rename_i hfree
    split
    · exact h
    · rename_i x rest hw
      split
      · exact h
      · have hnone : s.drive.offered = none := by
          cases ho : s.drive.offered <;> simp_all
        simp only [OrderAsked, hnone, hw, List.mem_cons, reduceCtorEq, false_or] at h
        rcases h with rfl | h
        · exact .inl rfl
        · exact .inr h

theorem offerNext_empty {s : State} (h : s.drive.waiting = []) : offerNext s = s := by
  unfold offerNext
  split
  · rfl
  · simp [h]

/-- A CYLINDER or HEAD order waits while a gate is up (R13). -/
theorem offerNext_gateUp {o : DriveOrder} {rest : List DriveOrder} {s : State} (h : s.drive.waiting = o :: rest)
    (ho : o.waitsForGate = true) (hg : gateUp s = true) : offerNext s = s := by
  unfold offerNext
  split
  · rfl
  · simp [h, ho, hg]

/-- A free port with no gate up offers the oldest waiting order (R13). -/
theorem offerNext_offers {o : DriveOrder} {rest : List DriveOrder} {s : State} (hs : s.drive.offered = none)
    (ha : s.drive.ack = false) (h : s.drive.waiting = o :: rest) (hg : gateUp s = false) :
    offerNext s = { s with drive := { s.drive with offered := some o, strobeTicks := 0, waiting := rest } } := by
  simp [offerNext, hs, ha, h, hg]

theorem TouchesOnly.trans {l : List Part} {s t u : State} (h : TouchesOnly l s t) (k : TouchesOnly l t u) :
    TouchesOnly l s u := fun p hp => (h p hp).trans (k p hp)

theorem TouchesOnly.mono {l m : List Part} {s t : State} (h : TouchesOnly l s t) (hlm : l ⊆ m) : TouchesOnly m s t :=
  fun p hp => h p fun hl => hp (hlm hl)

theorem offerNext_touches (s : State) : TouchesOnly [.drive] s (offerNext s) := by
  obtain ⟨harb, hpos, hmap, hviews, hev, hrelay, hilock⟩ := offerNext_same s
  have hd := offerNext_decides s
  intro p hp
  cases p with
  | view c => exact congrArg (·.get c) hviews
  | port c => exact congrArg (·.get c) hd.ports
  | map => exact hmap
  | arb => exact harb
  | pos => exact hpos
  | drive => simp at hp
  | relay => exact hrelay
  | ilock => exact hilock
  | mbox => exact hd.mbox
  | watch => exact hd.watch
  | ev => exact hev
  | line => exact hd.line
  | warning => exact hd.warning
  | uptime => exact hd.uptime
  | pending => exact hd.pending

theorem requestOrder_touches (o : DriveOrder) (s : State) : TouchesOnly [.drive] s (requestOrder o s) :=
  TouchesOnly.trans (fun p hp => by cases p <;> first | rfl | simp at hp) (offerNext_touches _)

/-! ## Acknowledgements -/

/-- The part once the order offered has been acknowledged and taken off the lines: the acknowledgement is high, the
strobe down (R13). -/
def strobeAcknowledged (s : State) : State := { s with drive := { s.drive with ack := true, offered := none } }

theorem exec_driveOrderAcknowledge {o : DriveOrder} {s : State} (h : s.drive.offered = some o) :
    exec .driveOrderAcknowledge s = .next (orderAcknowledged o (strobeAcknowledged s)) := by
  simp [exec, execDriveOrderAcknowledge, h, dropStrobe, strobeAcknowledged]

theorem exec_driveAcknowledgeFall (s : State) :
    exec .driveAcknowledgeFall s = .next (offerNext { s with drive := { s.drive with ack := false } }) := rfl

theorem setProt_prot (v : Vol) (b : Bool) (d : DrivePort) : (setProt v b d).prot v = b := by cases v <;> rfl

theorem setProt_lines (v : Vol) (b : Bool) (d : DrivePort) :
    (setProt v b d).offered = d.offered ∧ (setProt v b d).ack = d.ack ∧ (setProt v b d).waiting = d.waiting := by
  cases v <;> exact ⟨rfl, rfl, rfl⟩

theorem isFor_iff (a : ArbState) (c : Chan) : a.isFor c = true ↔ a = .owned c ∨ ∃ k, a = .claimed c k := by
  cases a <;> simp [ArbState.isFor]

/-- When the acknowledgement of the relay's HEAD order for a channel clears the pending selection (R104; log 39). -/
theorem endsPending_iff (sel : Sel) (c : Chan) (s : State) :
    endsPending sel (.relay c) s = true ↔
      s.relay.headPending = some sel ∧ (s.arb.st = .owned c ∨ ∃ k, s.arb.st = .claimed c k)
        ∧ ∀ sel', DriveOrder.head sel' (.relay c) ∉ s.drive.waiting := by
  have hwait : s.drive.waiting.any (·.headBy (.relay c)) = false ↔
      ∀ sel', DriveOrder.head sel' (.relay c) ∉ s.drive.waiting := by
    rw [Bool.eq_false_iff]
    simp only [ne_eq, List.any_eq_true, headBy_iff, not_exists, not_and]
    exact ⟨fun h sel' hm => h _ hm sel' rfl, fun h o ho sel' he => h sel' (he ▸ ho)⟩
  simp only [endsPending, Bool.and_eq_true, decide_eq_true_eq, Bool.not_eq_true', isFor_iff, hwait]
  tauto

theorem clearPending_ends {sel : Sel} {i : HeadIssuer} {s : State} (h : endsPending sel i s = true) :
    clearPending sel i s = { s with relay := { s.relay with headPending := none } } := if_pos h

theorem clearPending_keeps {sel : Sel} {i : HeadIssuer} {s : State} (h : endsPending sel i s ≠ true) :
    clearPending sel i s = s := if_neg h

/-- The selection and the protection mark that a HEAD order's acknowledgement sets (R15, R99). -/
def selectionAcknowledged (sel : Sel) (s : State) : State :=
  { s with pos := { s.pos with lastSel := some sel }, drive := setProt sel.vol s.drive.writeProtected s.drive }

theorem selectionAcknowledged_touches (sel : Sel) (s : State) :
    TouchesOnly [.pos, .drive] s (selectionAcknowledged sel (strobeAcknowledged s)) := by
  intro p hp; cases p <;> first | rfl | simp at hp

theorem orderAcknowledged_relay (sel : Sel) (c : Chan) (s : State) :
    orderAcknowledged (.head sel (.relay c)) s = clearPending sel (.relay c) (selectionAcknowledged sel s) := rfl

theorem orderAcknowledged_mapStore (sel : Sel) (s : State) :
    orderAcknowledged (.head sel .mapStore) s = headForTransfer sel (selectionAcknowledged sel s) := rfl

/-- A clearing step whose trouble is already gone at the acknowledgement goes on to the recalibration (R94). -/
theorem faultClearAcknowledged {s : State} (h : s.drive.offered = some .faultClear) (ht : driveTroubled s = false)
    (hc : s.pos.st = .clearing) :
    ∃ u, exec .driveOrderAcknowledge s = .next u ∧ u.pos = { s.pos with st := .recalibrating, ticks := none }
      ∧ OrderAsked .recalibrate u ∧ TouchesOnly [.pos, .drive] s u := by
  have ht' : driveTroubled (strobeAcknowledged s) = false := ht
  have hc' : (strobeAcknowledged s).pos.st = .clearing := hc
  have he : orderAcknowledged .faultClear (strobeAcknowledged s) =
      requestOrder .recalibrate
        { strobeAcknowledged s with pos := { s.pos with st := .recalibrating, ticks := none } } := by
    simp only [orderAcknowledged, ht', hc', and_self, if_true]
    rfl
  refine ⟨_, (exec_driveOrderAcknowledge h).trans (congrArg _ he), ?_, requestOrder_asked _ _, ?_⟩
  · exact (requestOrder_same _ _).2.1
  · refine TouchesOnly.trans ?_ ((requestOrder_touches _ _).mono (by decide))
    intro p hp; cases p <;> first | rfl | simp at hp

/-- A HEAD order of the relay's acknowledged (R99, R104). -/
theorem relayHeadAcknowledged {sel : Sel} {c : Chan} {s : State} (h : s.drive.offered = some (.head sel (.relay c))) :
    ∃ u, exec .driveOrderAcknowledge s = .next u ∧ u.pos = { s.pos with lastSel := some sel }
      ∧ u.drive.offered = none ∧ u.drive.ack = true ∧ u.drive.prot sel.vol = s.drive.writeProtected
      ∧ TouchesOnly [.pos, .drive, .relay] s u
      ∧ (let ends := s.relay.headPending = some sel ∧ (s.arb.st = .owned c ∨ ∃ k, s.arb.st = .claimed c k)
          ∧ ∀ sel', DriveOrder.head sel' (.relay c) ∉ s.drive.waiting
         (ends → u.relay = { s.relay with headPending := none }) ∧ (¬ends → u.relay = s.relay)) := by
  have hexec := (exec_driveOrderAcknowledge h).trans (congrArg _ (orderAcknowledged_relay sel c _))
  have hprot := setProt_prot sel.vol s.drive.writeProtected (strobeAcknowledged s).drive
  obtain ⟨hoff, hack, hwait⟩ := setProt_lines sel.vol s.drive.writeProtected (strobeAcknowledged s).drive
  have hframe := (selectionAcknowledged_touches sel s).mono (m := [.pos, .drive, .relay]) (by decide)
  have hends : endsPending sel (.relay c) (selectionAcknowledged sel (strobeAcknowledged s)) = true ↔
      s.relay.headPending = some sel ∧ (s.arb.st = .owned c ∨ ∃ k, s.arb.st = .claimed c k)
        ∧ ∀ sel', DriveOrder.head sel' (.relay c) ∉ s.drive.waiting := by
    rw [endsPending_iff]
    change _ ∧ _ ∧ (∀ sel', _ ∉ (setProt sel.vol s.drive.writeProtected (strobeAcknowledged s).drive).waiting) ↔ _
    rw [hwait]
    rfl
  by_cases he : endsPending sel (.relay c) (selectionAcknowledged sel (strobeAcknowledged s)) = true
  · rw [clearPending_ends he] at hexec
    refine ⟨_, hexec, rfl, hoff, hack, hprot, hframe.trans ?_, fun _ => rfl, fun hn => absurd (hends.1 he) hn⟩
    intro p hp; cases p <;> first | rfl | simp at hp
  · rw [clearPending_keeps he] at hexec
    exact ⟨_, hexec, rfl, hoff, hack, hprot, hframe, fun hy => absurd (hends.2 hy) he, fun _ => rfl⟩

/-- The Map Store's HEAD order acknowledged: the wait for sector 0 begins (R58). -/
theorem mapStoreHeadAcknowledged {v : Vol} {s : State} (h : s.drive.offered = some (.head ⟨v, .h0⟩ .mapStore))
    (hx : s.map.xfer = .headOrder v) :
    ∃ u, exec .driveOrderAcknowledge s = .next u ∧ u.pos = { s.pos with lastSel := some ⟨v, .h0⟩ }
      ∧ u.map = { s.map with xfer := .awaitSector v } ∧ TouchesOnly [.pos, .drive, .map] s u := by
  have hx' : (selectionAcknowledged ⟨v, .h0⟩ (strobeAcknowledged s)).map.xfer = .headOrder v := hx
  have he : headForTransfer ⟨v, .h0⟩ (selectionAcknowledged ⟨v, .h0⟩ (strobeAcknowledged s)) =
      setXfer (.awaitSector v) (selectionAcknowledged ⟨v, .h0⟩ (strobeAcknowledged s)) := by
    simp [headForTransfer, hx']
  refine ⟨_, (exec_driveOrderAcknowledge h).trans (congrArg _ ((orderAcknowledged_mapStore _ _).trans he)), rfl, rfl, ?_⟩
  intro p hp; cases p <;> first | rfl | simp at hp

/-! ## ORDER SELECT and ORDER BUS at the drive port -/

theorem cylinder_bus {n : Nat} (h : n ≤ 407) : (DriveOrder.cylinder n).bus.toNat = n := by
  simp only [DriveOrder.bus, BitVec.toNat_ofNat]
  omega

/-- Bit 0 of a HEAD order is the head, bit 1 the volume, and the rest are zero (R169, R170). -/
theorem head_bus (sel : Sel) (i : HeadIssuer) :
    (DriveOrder.head sel i).bus.getLsbD 0 = decide (sel.head = .h1)
      ∧ (DriveOrder.head sel i).bus.getLsbD 1 = decide (sel.vol = .r)
      ∧ (DriveOrder.head sel i).bus.extractLsb' 2 8 = 0#8 := by
  obtain ⟨v, h⟩ := sel
  simp only [DriveOrder.bus]
  cases v <;> cases h <;> decide

/-- Settles O38: the acknowledgement by the order offered, its fall by what waits. -/
theorem driveOrderHandshake : Obligations.DriveOrderHandshake := by
  intro s
  refine ⟨fun n h => exec_driveOrderAcknowledge h, fun h => exec_driveOrderAcknowledge h, fun h ht => ?troubled,
    fun h ht hc => faultClearAcknowledged h ht hc, fun sel c h => relayHeadAcknowledged h,
    fun v h hx => mapStoreHeadAcknowledged h hx, fun _ hw => ?idle, fun o rest ho hw => ⟨fun hr hg => ?offers, ?waits⟩,
    fun n hn => ⟨rfl, cylinder_bus hn⟩, fun sel i => ⟨rfl, head_bus sel i⟩, rfl, rfl, rfl, rfl⟩
  case troubled =>
    have ht' : driveTroubled (strobeAcknowledged s) = true := ht
    rw [exec_driveOrderAcknowledge h]
    simp only [orderAcknowledged, ht', Bool.true_eq_false, and_false, if_false]
    rfl
  case idle =>
    rw [exec_driveAcknowledgeFall, offerNext_empty (s := { s with drive := { s.drive with ack := false } }) hw]
  case offers =>
    rw [exec_driveAcknowledgeFall, offerNext_offers (s := { s with drive := { s.drive with ack := false } })
      ho rfl hw ((not_gateUp_iff _).2 ⟨hr, hg⟩)]
  case waits =>
    intro hkind hgate
    have hwaits : o.waitsForGate = true := by
      rcases hkind with ⟨n, rfl⟩ | ⟨sel, i, rfl⟩ <;> rfl
    rw [exec_driveAcknowledgeFall, offerNext_gateUp (s := { s with drive := { s.drive with ack := false } })
      hw hwaits ((gateUp_iff _).2 hgate)]

end Sys2Proof.Machine
end

section
/-! One tick of 1 ms: the counts it advances, and the commands that fall due and join the queue. -/

namespace Sys2Proof.Machine

/-! ## When each command falls due -/

theorem mem_dueIf (b : Bool) (i j : Instr) : i ∈ dueIf b j ↔ b = true ∧ i = j := by
  cases b <;> simp [dueIf]

theorem attachDue_iff (s : State) (c : Chan) :
    attachDue s c = true ↔ (s.view c).st = .detached ∧ (s.port c).present = true ∧ 50 ≤ (s.view c).debounce := by
  simp [attachDue, and_assoc]

theorem readyDue_iff (s : State) :
    readyDue s = true ↔ s.drive.ready = true ∧ s.watch.readyAccepted = false ∧ 200 ≤ s.watch.readyDebounce := by
  simp [readyDue, and_assoc]

theorem judgesRotation_iff (k : WatchState) :
    k.judgesRotation = true ↔ k ∈ [WatchState.readingMap, .readingLabel, .running] := by
  cases k <;> decide

theorem rotationDue_iff (s : State) :
    rotationDue s = true ↔ 5 ≤ s.watch.gap ∧ (s.watch.st ∈ [WatchState.readingMap, .readingLabel, .running]
      ∨ (s.watch.st = .supplyHold ∧ s.watch.readyAccepted = true)) := by
  simp only [rotationDue, losesInHold, Bool.and_eq_true, Bool.or_eq_true, decide_eq_true_eq, judgesRotation_iff]
  exact and_comm

theorem clearDue_iff (s : State) :
    clearDue s = true ↔ s.watch.warnAccepted = true ∧ s.warning = false ∧ 100 ≤ s.watch.clearDebounce := by
  simp [clearDue, and_assoc]

theorem limitReached_iff (n : Nat) (s : State) : limitReached n s = true ↔ ∃ k ∈ s.pos.ticks, n ≤ k := by
  cases h : s.pos.ticks <;> simp [limitReached, h]

/-- The three limits of Positioner Control's steps, each in its own state (R93 to R95). -/
theorem mem_positionerDue (s : State) (i : Instr) :
    i ∈ positionerDue s ↔
      (i = .seekNoAnswer ∧ s.pos.st = .seeking ∧ ∃ k ∈ s.pos.ticks, 150 ≤ k)
        ∨ (i = .clearingTimeLimit ∧ s.pos.st = .clearing ∧ ∃ k ∈ s.pos.ticks, 50 ≤ k)
        ∨ (i = .recalibrationTimeLimit ∧ s.pos.st = .recalibrating ∧ ∃ k ∈ s.pos.ticks, 600 ≤ k) := by
  simp only [← limitReached_iff]
  cases h : s.pos.st <;> simp only [positionerDue, h] <;> simp
  case seeking => cases limitReached 150 s <;> simp
  case clearing => cases limitReached 50 s <;> simp
  case recalibrating => cases limitReached 600 s <;> simp

theorem otherWaits_iff (s : State) (x : Chan) : otherWaits s x = true ↔ Waits s x := by
  simp [otherWaits, Waits, Option.isSome_iff_ne_none]

theorem releaseDue_iff (s : State) :
    releaseDue s = true ↔ s.map.mapState = .valid
      ∧ ∃ x, s.arb.st = .owned x ∧ Waits s x ∧ (paramsOf s.map.activeMap x).l ≤ (s.view x).idle := by
  cases h : s.arb.st with
  | owned x =>
    by_cases hv : s.map.mapState = .valid <;> simp [releaseDue, h, MapStore.params, hv, otherWaits_iff]
  | free | claimed | internal | halted => simp [releaseDue, h]

theorem budgetDue_iff (s : State) (x : Chan) :
    budgetDue s x = true ↔
      s.arb.st = .owned x ∧ Waits s x ∧ s.arb.budget ≤ s.arb.clock ∧ s.arb.releasePending = false := by
  simp [budgetDue, otherWaits_iff, and_assoc]

theorem budgetNow_iff (s : State) :
    budgetNow s = true ↔
      ∃ x, s.arb.st = .owned x ∧ Waits s x ∧ s.arb.budget ≤ s.arb.clock ∧ s.arb.releasePending = false := by
  simp only [budgetNow, Bool.or_eq_true, ← budgetDue_iff]
  exact ⟨fun h => h.elim (⟨.a, ·⟩) (⟨.b, ·⟩), fun ⟨x, h⟩ => by cases x <;> simp [h]⟩

theorem agedOut_iff (now : Stamp) (m : Nat) (e : Entry) : agedOut now m e = true ↔ m ≤ (now - e.first).toNat :=
  decide_eq_true_iff

/-- The entries that age out, each named by its volume and cylinder (R122). -/
theorem mem_agedDue (s : State) (i : Instr) :
    i ∈ agedDue s ↔ ∃ v cyl, i = .interlockAgedOut v cyl ∧ s.map.mapState = .valid
      ∧ ∃ e ∈ s.ilock.list, e.vol = v ∧ e.cyl = cyl ∧ imageWord s.map.activeMap 11 ≤ (s.uptime - e.first).toNat := by
  by_cases hv : s.map.mapState = .valid
  · simp only [agedDue, MapStore.chainLimits, hv, if_true, List.mem_map, List.mem_filter, agedOut_iff]
    constructor
    · rintro ⟨e, ⟨he, hage⟩, rfl⟩
      exact ⟨e.vol, e.cyl, rfl, trivial, e, he, rfl, rfl, hage⟩
    · rintro ⟨_, _, rfl, -, e, he, rfl, rfl, hage⟩
      exact ⟨e, ⟨he, hage⟩, rfl⟩
  · simp [agedDue, MapStore.chainLimits, hv]

theorem chainQuiet_iff (now : Stamp) (limit : Nat) (stamp : Option Stamp) :
    chainQuiet now limit stamp = true ↔ ∃ t ∈ stamp, limit ≤ (now - t).toNat := by
  cases stamp with
  | none => simp [chainQuiet]
  | some t => exact decide_eq_true_iff.trans ⟨fun h => ⟨t, rfl, h⟩, fun ⟨_, rfl, h⟩ => h⟩

theorem chainDue_iff (s : State) (c : Chan) :
    chainDue s c = true ↔ s.map.mapState = .valid
      ∧ ∃ stamp ∈ s.ilock.chain.get c, imageWord s.map.activeMap 10 ≤ (s.uptime - stamp).toNat := by
  by_cases hv : s.map.mapState = .valid
  · simp only [chainDue, MapStore.chainLimits, hv, if_true, chainQuiet_iff, true_and]
  · simp [chainDue, MapStore.chainLimits, hv]

theorem withdrawalDue_iff (s : State) :
    (s.drive.offered.isSome && decide (5 ≤ s.drive.strobeTicks)) = true ↔
      s.drive.offered ≠ none ∧ 5 ≤ s.drive.strobeTicks := by simp [Option.isSome_iff_ne_none]

/-- What has fallen due, command by command. -/
theorem mem_dueNow (s : State) (i : Instr) : i ∈ dueNow s ↔ FallsDue (carriedNow s) s i := by
  simp only [dueNow, List.mem_append, mem_dueIf, mem_positionerDue, mem_agedDue, attachDue_iff, readyDue_iff,
    rotationDue_iff, clearDue_iff, withdrawalDue_iff, releaseDue_iff, budgetNow_iff, chainDue_iff, or_assoc]
  constructor
  · rintro (⟨h, rfl⟩ | ⟨h, rfl⟩ | ⟨h, rfl⟩ | ⟨h, rfl⟩ | ⟨h, rfl⟩ | ⟨h, rfl⟩ | ⟨rfl, h⟩ | ⟨rfl, h⟩ | ⟨rfl, h⟩
      | ⟨h, rfl⟩ | ⟨h, rfl⟩ | ⟨v, cyl, rfl, h⟩ | ⟨h, rfl⟩ | ⟨h, rfl⟩)
    case inr.inr.inr.inl => exact ⟨rfl, h⟩
    case inr.inr.inr.inr.inr.inl => exact ⟨rfl, h⟩
    all_goals exact h
  · intro h
    cases i with
    | attach c =>
      cases c
      case a => exact .inl ⟨h, rfl⟩
      case b => exact .inr (.inl ⟨h, rfl⟩)
    | readyAccepted =>
      iterate 2 right
      exact .inl ⟨h, rfl⟩
    | rotationLost x =>
      iterate 3 right
      exact .inl ⟨h.2, congrArg _ h.1⟩
    | supplyClearAccepted =>
      iterate 4 right
      exact .inl ⟨h, rfl⟩
    | orderWithdrawn x =>
      iterate 5 right
      exact .inl ⟨h.2, congrArg _ h.1⟩
    | seekNoAnswer =>
      iterate 6 right
      exact .inl ⟨rfl, h⟩
    | clearingTimeLimit =>
      iterate 7 right
      exact .inl ⟨rfl, h⟩
    | recalibrationTimeLimit =>
      iterate 8 right
      exact .inl ⟨rfl, h⟩
    | releaseInterval =>
      iterate 9 right
      exact .inl ⟨h, rfl⟩
    | budgetExpiry =>
      iterate 10 right
      exact .inl ⟨h, rfl⟩
    | interlockAgedOut v cyl =>
      iterate 11 right
      exact .inl ⟨v, cyl, rfl, h⟩
    | interlockChainEnd c =>
      iterate 12 right
      cases c
      case a => exact .inl ⟨h, rfl⟩
      case b => exact .inr ⟨h, rfl⟩
    | _ => exact h.elim

/-! ## The counts of a tick -/

theorem step_empty {s : State} (h : s.pending = []) : step s = .next (tick s) := by simp [step, h]

theorem tickView_iff (present : Bool) (gate : Option Chan) (c : Chan) (v : View) :
    tickView present (decide (gate = some c)) v =
      { v with
        wait := if v.st = .requesting ∨ v.st = .deferred then countUp 65535 v.wait else v.wait,
        idle := if v.st = .detached then v.idle else if gate = some c then 0 else countUp 65535 v.idle,
        debounce := if v.st = .detached ∧ present = true then countUp 50 v.debounce else v.debounce } := by
  simp [tickView, tickIdle]

theorem tick_view (s : State) (c : Chan) :
    (tick s).view c = tickView (s.port c).present (gateActive s c) (s.view c) := by cases c <;> rfl

theorem tick_clock (s : State) :
    (tick s).arb.clock = if clockRuns s then countUp s.arb.budget s.arb.clock else s.arb.clock := rfl

theorem clockRuns_owned {s : State} {x : Chan} (h : s.arb.st = .owned x) : clockRuns s = otherWaits s x := by
  simp [clockRuns, h]

theorem clockRuns_not_owned {s : State} (h : ∀ x, s.arb.st ≠ .owned x) : clockRuns s = false := by
  cases hs : s.arb.st <;> simp_all [clockRuns]

theorem tick_touches (s : State) :
    TouchesOnly [.view .a, .view .b, .arb, .pos, .drive, .watch, .uptime, .pending] s (tick s) := by
  intro p hp
  cases p with
  | view c => cases c <;> simp at hp
  | arb | pos | drive | watch | uptime | pending => simp at hp
  | _ => rfl

/-- What joins an empty queue is what falls due, in the counts that the tick leaves. -/
theorem mem_tick_pending {s : State} (h : s.pending = []) (i : Instr) :
    i ∈ (tick s).pending ↔ FallsDue (carriedNow (tickCounts s)) (tick s) i := by
  have hq : (tick s).pending =
      s.pending ++ permuted (dueNow (tickCounts s)).length (tickCounts s).free (dueNow (tickCounts s)) := rfl
  rw [hq, h, List.nil_append, (permuted_perm _ _ _).mem_iff, mem_dueNow]
  cases i <;> rfl

theorem carriedNow_noGate {s : State} (hr : s.drive.readGate = false) (hw : s.drive.writeGate = false) :
    carriedNow s = .nothing := by
  simp [carriedNow, gateUp, hr, hw]

theorem le_countUp {limit n k : Nat} (hk : k ≤ limit) (hn : k ≤ n + 1) : k ≤ countUp limit n := by
  unfold countUp; split <;> omega

/-- A DETACHED view with PRESENT high is attached at the tick that brings its debounce to 50 (R40). -/
theorem attach_mem_tick {s : State} {c : Chan} (h : s.pending = []) (hd : (s.view c).st = .detached)
    (hp : (s.port c).present = true) (hc : 49 ≤ (s.view c).debounce) : Instr.attach c ∈ (tick s).pending := by
  rw [mem_tick_pending h]
  simp only [FallsDue, tick_view]
  refine ⟨hd, hp, ?_⟩
  simpa [tickView, hd, hp] using le_countUp (limit := 50) (by omega) (by omega : 50 ≤ (s.view c).debounce + 1)

/-- A seek is given up at the tick that brings its count to 150 (R93). -/
theorem seekNoAnswer_mem_tick {s : State} (h : s.pending = []) (hs : s.pos.st = .seeking)
    (ht : s.pos.ticks = some 149) : Instr.seekNoAnswer ∈ (tick s).pending := by
  rw [mem_tick_pending h]
  have htick : (tick s).pos.ticks = s.pos.ticks.map (countUp 600) := rfl
  exact ⟨hs, 150, by simp [htick, ht, countUp], le_rfl⟩

/-- Settles O2: the counts are those of `tickCounts`, the queue what `dueNow` finds in them. -/
theorem emptyQueueStepIsOneTick : Obligations.EmptyQueueStepIsOneTick := by
  intro s h
  refine ⟨tick s, step_empty h, rfl, fun c => ?view, rfl, fun x hx => ?owned, fun hx => ?notOwned, rfl, rfl, rfl,
    ⟨carriedNow (tickCounts s), fun hr hw => carriedNow_noGate hr hw, mem_tick_pending h⟩,
    fun c hd hp hc => attach_mem_tick h hd hp hc, fun hs ht => seekNoAnswer_mem_tick h hs ht, rfl, tick_touches s⟩
  case view => exact (tick_view s c).trans (tickView_iff _ _ c _)
  case owned => rw [tick_clock, clockRuns_owned hx]
  case notOwned => rw [tick_clock, clockRuns_not_owned hx]; rfl

end Sys2Proof.Machine
end

section
/-! SUPPORT. `Steady`: what grant decisions, the end of a gate and the failure of a commit keep of the views, of Positioner
Control, of the drive's own lines and of the flags. One lemma for each operation, in the order of the model. -/

namespace Sys2Proof.Machine

/-- No view becomes DETACHED, the selection last ordered stays, FAULT and SEEK ERROR stay, and of the flags without a
channel only those of a full torn list (E8) and of a failed commit (E20) may be set. -/
structure Steady (s t : State) : Prop where
  attached : ∀ c, (s.view c).st ≠ .detached → (t.view c).st ≠ .detached
  lastSel  : t.pos.lastSel = s.pos.lastSel
  trouble  : driveTroubled t = driveTroubled s
  flags    : ∀ e, e ∉ [SoleEvent.tornListOverflow, .mapCommitFailed] → t.ev.record (.sole e) = s.ev.record (.sole e)

theorem Steady.trans {s t u : State} (h : Steady s t) (k : Steady t u) : Steady s u where
  attached c hc := k.attached c (h.attached c hc)
  lastSel := k.lastSel.trans h.lastSel
  trouble := k.trouble.trans h.trouble
  flags e he := (k.flags e he).trans (h.flags e he)

/-- What `Steady` speaks of: the views, the selection last ordered, the drive's trouble, the event unit. -/
def steadyPart (s : State) : Pair View × Option Sel × Bool × EventUnit :=
  (s.views, s.pos.lastSel, driveTroubled s, s.ev)

theorem Steady.of_same {s t : State} (h : steadyPart t = steadyPart s) : Steady s t := by
  obtain ⟨hviews, hsel, htrouble, hev⟩ : t.views = s.views ∧ t.pos.lastSel = s.pos.lastSel
      ∧ driveTroubled t = driveTroubled s ∧ t.ev = s.ev := by simpa [steadyPart] using h
  exact ⟨fun c hc => by rw [State.view, hviews]; exact hc, hsel, htrouble, fun e _ => by rw [hev]⟩

theorem Steady.after {s t u : State} (k : Steady t u) (h : steadyPart t = steadyPart s) : Steady s u :=
  (Steady.of_same h).trans k

theorem Steady.refl (s : State) : Steady s s := .of_same rfl

/-! ## Leaves -/

theorem steady_view {c : Chan} {v : View} {s : State} (h : (s.view c).st ≠ .detached → v.st ≠ .detached) :
    Steady s (setView c v s) where
  attached d hd := by
    rw [setView_view]
    split
    · rename_i hdc
      exact h (hdc ▸ hd)
    · exact hd
  lastSel := rfl
  trouble := rfl
  flags _ _ := rfl

theorem setViewState_steady (c : Chan) {k : ViewState} (h : k ≠ .detached) (s : State) :
    Steady s (setViewState c k s) := steady_view fun _ => h

theorem raise_steady {f : Flag} (c : Option Chan) (p : PartAddr) (n : Nat) (s : State)
    (h : ∀ e, e ∉ [SoleEvent.tornListOverflow, .mapCommitFailed] → f ≠ .sole e) : Steady s (raise f c p n s) where
  attached _ := id
  lastSel := rfl
  trouble := rfl
  flags e he := by
    rw [raise_ev, EventUnit.record_occurrence, if_neg]
    exact fun hf => h e he hf.1.symm

theorem raiseFor_steady (c : Chan) (e : ChanEvent) (p : PartAddr) (n : Nat) (s : State) :
    Steady s (raiseFor c e p n s) := raise_steady _ p n s fun _ _ => nofun

theorem raiseSole_steady {e : SoleEvent} (p : PartAddr) (n : Nat) (s : State)
    (h : e ∈ [SoleEvent.tornListOverflow, .mapCommitFailed]) : Steady s (raiseSole e p n s) :=
  raise_steady _ p n s fun _ he hf => he (Flag.sole.inj hf ▸ h)

theorem giveCause_steady (c : Chan) (k : Cause) (s : State) : Steady s (giveCause c k s) := by
  unfold giveCause
  split
  · exact .refl s
  · exact steady_view id

theorem offerNext_steady (s : State) : Steady s (offerNext s) := by
  obtain ⟨-, hpos, -, hviews, hev, -, -⟩ := offerNext_same s
  have htrouble : driveTroubled (offerNext s) = driveTroubled s := by
    unfold driveTroubled
    rw [(offerNext_decides s).drive]
  exact .of_same (by simp only [steadyPart, hviews, hpos, htrouble, hev])

theorem requestOrder_steady (o : DriveOrder) (s : State) : Steady s (requestOrder o s) :=
  (offerNext_steady _).after rfl

theorem dropDriveGates_steady (s : State) : Steady s (dropDriveGates s) :=
  (offerNext_steady _).after rfl

theorem discardHeads_steady (i : HeadIssuer) (s : State) : Steady s (discardHeads i s) := .of_same rfl

/-! ## Positioner Control and the relay's head selection -/

theorem startClearing_steady (g : Stage) (s : State) : Steady s (startClearing g s) :=
  (requestOrder_steady _ _).after rfl

theorem startRecalibration_steady (g : Stage) (s : State) : Steady s (startRecalibration g s) :=
  (requestOrder_steady _ _).after rfl

theorem attemptSeek_steady (n : Nat) (s : State) : Steady s (attemptSeek n s) :=
  (requestOrder_steady _ _).after rfl

theorem beginSeek_steady (n : Nat) (s : State) : Steady s (beginSeek n s) := by
  unfold beginSeek clearThenRecalibrate
  split
  · split
    · exact startClearing_steady _ s
    · exact startRecalibration_steady _ s
  · exact attemptSeek_steady n s

theorem askSeek_steady (n : Nat) (s : State) : Steady s (askSeek n s) := by
  unfold askSeek
  split
  · exact (beginSeek_steady n _).after rfl
  · split
    · exact .of_same rfl
    · exact .refl s
  · split
    · exact .of_same rfl
    · exact .refl s
  · exact .refl s
  · exact .refl s

theorem beginTransfer_steady (s : State) : Steady s (beginTransfer s) := by
  unfold beginTransfer
  split
  · exact .refl s
  · unfold beginSector
    split
    · exact .of_same rfl
    · exact (requestOrder_steady _ _).after rfl

theorem askHead_steady (c : Chan) (s : State) : Steady s (askHead c s) := by
  unfold askHead
  simp only
  split
  · exact .of_same rfl
  · split
    · exact .of_same rfl
    · exact (requestOrder_steady _ _).after rfl

theorem headAtGrantStart_steady (c : Chan) (s : State) : Steady s (headAtGrantStart c s) := by
  unfold headAtGrantStart
  split
  · exact .of_same rfl
  · exact askHead_steady c s

theorem headAtGrantEnd_steady (c : Chan) (s : State) : Steady s (headAtGrantEnd c s) := .of_same rfl

/-! ## Grants and claims -/

theorem enterOwned_steady (c : Chan) (s : State) : Steady s (enterOwned c s) := by
  refine Steady.trans ?_ (headAtGrantStart_steady c _)
  exact (steady_view fun _ => by simp).after rfl

theorem seekFor_steady (n : Nat) (s : State) : Steady s (seekFor n s) :=
  (askSeek_steady n _).after rfl

theorem grantTo_steady (c : Chan) (s : State) : Steady s (grantTo c s) := by
  unfold grantTo
  split
  · exact .refl s
  · simp only
    split
    · exact (enterOwned_steady c _).after rfl
    · exact (seekFor_steady _ _).after rfl

theorem grantInternal_steady (s : State) : Steady s (grantInternal s) := by
  unfold grantInternal
  simp only
  split
  · exact (beginTransfer_steady _).after rfl
  · exact (seekFor_steady _ _).after rfl

theorem decideGrant_steady (s : State) : Steady s (decideGrant s) := by
  unfold decideGrant
  split
  · split
    · exact grantInternal_steady s
    · split
      · exact .refl s
      · exact grantTo_steady _ s
      · exact grantTo_steady _ s
      · split
        · exact (raiseFor_steady _ _ _ _ s).trans (grantTo_steady _ _)
        · exact grantTo_steady _ s
  · exact .refl s

theorem toFree_steady (s : State) : Steady s (toFree s) := (decideGrant_steady _).after rfl

theorem charge_steady (c : Chan) (s : State) : Steady s (charge c s) := .of_same rfl

theorem viewGrantEnd_steady (c : Chan) (s : State) : Steady s (viewGrantEnd c s) := by
  unfold viewGrantEnd
  split
  · exact setViewState_steady c (k := .standby) (by simp) s
  · exact .refl s

theorem preempt_steady (c : Chan) (s : State) : Steady s (preempt c s) :=
  (giveCause_steady c _ s).trans (raiseFor_steady _ _ _ _ _)

theorem grantEnd_steady (c : Chan) (k : EndCause) (s : State) : Steady s (grantEnd c k s) := by
  have hbudget : Steady s (if k = .budget then preempt c (charge c s) else charge c s) := by
    split
    · exact (charge_steady c s).trans (preempt_steady c _)
    · exact charge_steady c s
  unfold grantEnd
  simp only
  refine .trans (.trans ?_ (headAtGrantEnd_steady c _)) (toFree_steady _)
  by_cases hk : k = .reseek ∨ k = .giveUp
  · rw [if_pos hk]; exact hbudget
  · rw [if_neg hk]; exact hbudget.trans (viewGrantEnd_steady c _)

theorem claimEnd_steady (c : Chan) (b : Bool) (s : State) : Steady s (claimEnd c b s) := by
  refine .trans (.trans ?_ (headAtGrantEnd_steady c _)) (toFree_steady _)
  cases b <;> exact .of_same rfl

theorem judgeRelease_steady (s : State) : Steady s (judgeRelease s) := by
  unfold judgeRelease
  split
  · split
    · split
      · exact grantEnd_steady _ _ s
      · exact .refl s
    · exact .refl s
  · exact .refl s

/-! ## Requests -/

theorem reseek_steady (c : Chan) (p : Place) (s : State) : Steady s (reseek c p s) := by
  unfold reseek
  split
  · exact grantEnd_steady c _ s
  · exact (seekFor_steady _ _).after rfl

theorem retargetHeld_steady (p : Place) (s : State) : Steady s (retargetHeld p s) := by
  unfold retargetHeld
  split <;> exact .of_same rfl

theorem requestArrives_steady (c : Chan) (p : Place) (s : State) : Steady s (requestArrives c p s) := by
  have hrecord : Steady s { s with arb := { s.arb with request := s.arb.request.set c (some p) } } :=
    .of_same rfl
  unfold requestArrives
  simp only
  split
  · exact hrecord.trans (decideGrant_steady _)
  · split
    · exact hrecord.trans (retargetHeld_steady p _)
    · exact hrecord
  · split
    · exact hrecord.trans (reseek_steady c p _)
    · split
      · exact hrecord
      · exact hrecord.trans (judgeRelease_steady _)
  · exact hrecord
  · exact hrecord

theorem removeRequest_steady (c : Chan) (s : State) : Steady s (removeRequest c s) := by
  unfold removeRequest
  simp only
  split
  · split <;> exact .of_same rfl
  · exact .of_same rfl

theorem withdrawRequest_steady (c : Chan) (s : State) : Steady s (withdrawRequest c s) := by
  unfold withdrawRequest
  simp only
  split
  · split
    · exact (removeRequest_steady c s).trans (claimEnd_steady _ _ _)
    · exact removeRequest_steady c s
  · exact removeRequest_steady c s

theorem internalEnds_steady (s : State) : Steady s (internalEnds s) :=
  (decideGrant_steady _).after rfl

/-! ## Interlocks -/

theorem letThrough_steady (c : Chan) (s : State) : Steady s (letThrough c s) := by
  have h : Steady s (setDeferred c none (setViewState c .requesting s)) :=
    (setViewState_steady c (k := .requesting) (by simp) s).trans (.of_same rfl)
  unfold letThrough
  simp only
  split
  · exact h.trans (requestArrives_steady c _ _)
  · exact h

theorem releaseTest_steady (c : Chan) (s : State) : Steady s (releaseTest c s) := by
  unfold releaseTest
  split
  · split
    · exact .of_same rfl
    · exact letThrough_steady c s
  · exact .refl s

theorem removeEntries_steady (test : Entry → Bool) (s : State) : Steady s (removeEntries test s) := by
  have h : Steady s { s with ilock := s.ilock.remove test } := .of_same rfl
  unfold removeEntries
  simp only
  split <;> split
  · exact (h.trans (releaseTest_steady .a _)).trans (releaseTest_steady .b _)
  · exact h.trans (releaseTest_steady .b _)
  · exact h.trans (releaseTest_steady .a _)
  · exact h

theorem overflowOldest_steady (c : Chan) (s : State) : Steady s (overflowOldest c s) := by
  unfold overflowOldest
  split
  · exact .refl s
  · exact (raiseFor_steady c _ _ _ s).trans (removeEntries_steady _ _)

theorem setChain_steady (c : Chan) (t : Stamp) (s : State) : Steady s (setChain c t s) := .of_same rfl

theorem appendEntry_steady (c : Chan) (p : Place) (s : State) : Steady s (appendEntry c p s) := by
  have h : Steady s { s with ilock := { s.ilock with
      list := s.ilock.list ++ [⟨c, p.vol, p.cyl, s.uptime, s.uptime, 1⟩] } } := .of_same rfl
  unfold appendEntry
  simp only
  split
  · exact (h.trans (setViewState_steady (peer c) (k := .deferred) (by simp) _)).trans
      ((withdrawRequest_steady _ _).after rfl)
  · exact h

theorem fullSharedWrite_steady (c : Chan) (p : Place) (s : State) : Steady s (fullSharedWrite c p s) := by
  unfold fullSharedWrite
  split
  · exact .of_same rfl
  · split
    · split
      · exact .refl s
      · exact setChain_steady c _ s
    · split
      · exact (setChain_steady c _ s).trans (appendEntry_steady c p _)
      · exact ((overflowOldest_steady c s).trans (setChain_steady c _ _)).trans (appendEntry_steady c p _)

/-! ## The mailbox -/

theorem setNotice_steady (c : Chan) (l : List (Fin 24)) (s : State) : Steady s (setNotice c l s) := by
  refine Steady.after (steady_view ?_) rfl
  exact id

theorem raiseGap_steady (c : Chan) (n : Nat) (k : Fin 24) (q : BitVec 8) (s : State) :
    Steady s (raiseGap c n k q s) := by
  unfold raiseGap
  split
  · split
    · exact .refl s
    · exact raiseFor_steady c _ _ _ s
  · exact .refl s

theorem mailboxWrite_steady (c : Chan) (n : Nat) (k : Fin 24) (r : Word) (s : State) :
    Steady s (mailboxWrite c n k r s) := by
  unfold mailboxWrite
  split
  · exact .refl s
  · unfold postMessage
    split
    · exact .refl s
    · exact (raiseGap_steady c n k _ s).trans ((setNotice_steady _ _ _).after rfl)
  · exact raiseFor_steady c _ _ _ s

theorem mailboxRead_steady (c : Chan) (k : Fin 24) (s : State) : Steady s (mailboxRead c k s) := by
  unfold mailboxRead
  split
  · exact (setNotice_steady c _ _).after rfl
  · exact .refl s

/-! ## The end of a gate -/

theorem mendSector_steady (x : Addr) (s : State) : Steady s (mendSector x s) := .of_same rfl

theorem addTorn_steady (e : TornEntry) (s : State) : Steady s (addTorn e s) := by
  unfold addTorn
  simp only
  split
  · split
    · exact (raiseSole_steady (e := .tornListOverflow) _ _ s (by decide)).trans (.of_same rfl)
    · exact .of_same rfl
  · exact .of_same rfl

theorem tearWrite_steady (g : GateRecord) (k : TearCause) (s : State) : Steady s (tearWrite g k s) := by
  have h := (addTorn_steady ⟨g.addr, .chan g.chan, k, s.uptime⟩ s).trans
    (raiseFor_steady g.chan .tornSector g.addr.whole (detailE7 k g.words) _)
  unfold tearWrite
  simp only
  split
  · exact h.trans (giveCause_steady _ _ _)
  · exact h

theorem judgeGate_steady (g : GateRecord) (k : TearCause) (s : State) : Steady s (judgeGate g k s) := by
  unfold judgeGate
  split
  · exact .refl s
  · split
    · exact mendSector_steady _ s
    · exact tearWrite_steady g k s

theorem reportInterlock_steady (g : GateRecord) (s : State) : Steady s (reportInterlock g s) := by
  unfold reportInterlock
  split
  · exact fullSharedWrite_steady _ _ s
  · exact .refl s

theorem reportMailbox_steady (g : GateRecord) (s : State) : Steady s (reportMailbox g s) := by
  unfold reportMailbox
  split
  · split
    · split
      · exact .refl s
      · exact mailboxRead_steady _ _ s
    · split
      · exact mailboxWrite_steady _ _ _ _ s
      · exact .refl s
  · exact .refl s

theorem relayData_steady (g : GateRecord) (w : Carried) (s : State) : Steady s (relayData g w s) := by
  unfold relayData
  split <;> exact .of_same rfl

theorem endGate_steady (k : TearCause) (w : Carried) (s : State) : Steady s (endGate k w s) := by
  unfold endGate
  split
  · exact .refl s
  · refine Steady.trans ?_ (reportMailbox_steady _ _)
    refine Steady.trans ?_ (reportInterlock_steady _ _)
    refine Steady.trans ?_ (judgeGate_steady _ k _)
    refine Steady.trans ?_ (dropDriveGates_steady _)
    exact (relayData_steady _ w _).after rfl

theorem cutInternal_steady (k : TearCause) (w : Carried) (s : State) : Steady s (cutInternal k w s) := by
  unfold cutInternal
  split
  · rename_i v _
    have hshow : Steady s (showInternalWrite v w s) := by
      unfold showInternalWrite
      split <;> exact .of_same rfl
    simp only
    split
    · exact (hshow.trans (dropDriveGates_steady _)).trans (mendSector_steady _ _)
    · exact (hshow.trans (dropDriveGates_steady _)).trans (addTorn_steady _ _)
  · exact dropDriveGates_steady s
  all_goals exact .refl s

/-! ## The failure of a commit -/

theorem commitFails_steady (n : Nat) (p : PartAddr) (s : State) : Steady s (commitFails n p s) := by
  unfold commitFails
  split
  · exact (raiseSole_steady _ _ _ (by decide)).after rfl
  · exact .refl s

theorem runningCommitFails_steady (b : Bool) (w : Carried) (s : State) : Steady s (runningCommitFails b w s) := by
  have hdrawn : Steady s { s with free := s.free + 1 } := .of_same rfl
  unfold runningCommitFails
  simp only
  split
  · split
    · exact commitFails_steady _ _ s
    · split
      · exact commitFails_steady _ _ s
      · exact hdrawn.trans (commitFails_steady _ _ _)
  · exact hdrawn.trans (commitFails_steady _ _ _)
  · exact hdrawn.trans (commitFails_steady _ _ _)
  · exact hdrawn.trans (commitFails_steady _ _ _)
  all_goals exact commitFails_steady _ _ s

theorem emptyQueue_steady (k : TearCause) (w : Carried) (s : State) : Steady s (emptyQueue k w s) := by
  have hremoved : Steady (cutInternal k w s) (removedCommitFails w (cutInternal k w s)) := by
    unfold removedCommitFails
    split
    · exact runningCommitFails_steady _ w _
    · split
      · exact commitFails_steady _ _ _
      · exact .refl _
  exact ((cutInternal_steady k w s).trans hremoved).trans (.of_same rfl)

/-! ## A drive FAULT while running -/

theorem cutAtFault_steady (w : Carried) (s : State) : Steady s (cutAtFault w s) := by
  unfold cutAtFault
  split
  · simp only
    split
    · exact (endGate_steady _ w s).trans (setViewState_steady _ (k := .positioned) (by simp) _)
    · exact endGate_steady _ w s
  · exact .refl s

theorem commitAtFault_steady (w : Carried) (s : State) : Steady s (commitAtFault w s) := by
  unfold commitAtFault
  split
  · exact runningCommitFails_steady _ w s
  · exact .refl s

theorem endAtFault_steady (s : State) : Steady s (endAtFault s) := by
  unfold endAtFault
  split
  · exact grantEnd_steady _ _ s
  · exact internalEnds_steady s
  · unfold claimAtFault
    split
    · exact .of_same rfl
    · exact claimEnd_steady _ _ s
  all_goals exact .refl s

theorem faultWhileRunning_steady (w : Carried) (s : State) : Steady s (faultWhileRunning w s) :=
  (((cutAtFault_steady w s).trans (cutInternal_steady _ w _)).trans (commitAtFault_steady w _)).trans
    (((startClearing_steady _ _).trans (endAtFault_steady _)).after rfl)

end Sys2Proof.Machine
end

section
/-! The drive given up, a recovery begun, and orders withdrawn unacknowledged (R13, R37, R96, R97, R99, R152). -/

namespace Sys2Proof.Machine

/-! ## The views at a drive that becomes unusable -/

/-- With no view DEFERRED, a removal of entries releases nobody (R125). -/
theorem removeEntries_not_deferred {s : State} (test : Entry → Bool) (h : ∀ c, (s.view c).st ≠ .deferred) :
    removeEntries test s = { s with ilock := s.ilock.remove test } := by
  have hrelease : ∀ c, releaseTest c { s with ilock := s.ilock.remove test } = { s with ilock := s.ilock.remove test } :=
    fun c => if_neg (h c)
  simp only [removeEntries, hrelease, ite_self]

/-- A view that is not DETACHED goes to NOT READY; the other stays (R37). -/
theorem viewUnusable_st (c d : Chan) (s : State) :
    ((viewUnusable c s).view d).st =
      if d = c ∧ (s.view c).st ≠ .detached then .notReady else (s.view d).st := by
  unfold viewUnusable
  by_cases hc : (s.view c).st = .detached
  · simp [hc]
  · by_cases hd : d = c
    · simp [hc, hd]
    · simp only [hc, hd, if_false, false_and, setDeferred_view, setView_view]
      rfl

/-- A view at a drive that becomes unusable loses its request record (R37). -/
theorem viewUnusable_same (c : Chan) (s : State) :
    (∃ r, (viewUnusable c s).arb = { s.arb with request := r }) ∧ (viewUnusable c s).pos = s.pos := by
  unfold viewUnusable
  split <;> exact ⟨⟨_, rfl⟩, rfl⟩

theorem bothUnusable_st (s : State) (c : Chan) :
    ((viewUnusable .b (viewUnusable .a s)).view c).st =
      if (s.view c).st = .detached then .detached else .notReady := by
  cases c <;> simp only [viewUnusable_st, reduceCtorEq, false_and, true_and, if_false, ite_not]
  · split <;> simp_all
  · split <;> simp_all

/-- Every view ends DETACHED or NOT READY, and of the arbiter the records alone go (R37). -/
theorem viewsUnusable_eq (s : State) :
    (∃ r, (viewsUnusable s).arb = { s.arb with request := r }) ∧ (viewsUnusable s).pos = s.pos
      ∧ ∀ c, ((viewsUnusable s).view c).st = if (s.view c).st = .detached then .detached else .notReady := by
  have hst := bothUnusable_st s
  have hnone : ∀ c, ((viewUnusable .b (viewUnusable .a s)).view c).st ≠ .deferred := by
    intro c
    rw [hst]
    split <;> simp
  obtain ⟨⟨_, harbA⟩, hposA⟩ := viewUnusable_same .a s
  obtain ⟨⟨r, harbB⟩, hposB⟩ := viewUnusable_same .b (viewUnusable .a s)
  rw [harbA] at harbB
  unfold viewsUnusable
  simp only [removeEntries_not_deferred _ hnone]
  exact ⟨⟨r, harbB⟩, hposB.trans hposA, hst⟩

/-- The drive is given up where a halt is followed by the views becoming unusable, if no view was detached on the way
(R37, R83, R90). -/
theorem down_of_halt {s t : State} (h : ∀ c, (s.view c).st ≠ .detached → (t.view c).st ≠ .detached) :
    Down s (viewsUnusable (halt t)) := by
  obtain ⟨⟨_, harb⟩, hpos, hst⟩ := viewsUnusable_eq (halt t)
  have hviews : ∀ c, (halt t).view c = t.view c := by
    intro c
    unfold State.view halt haltPositioner
    rw [(offerNext_same _).2.2.2.1]
    rfl
  rw [halt_arb] at harb
  rw [halt_pos] at hpos
  simp only [Down, harb, hpos, true_and]
  intro c hc
  rw [hst, hviews, if_neg (h c hc)]

theorem Down.of_same {s t u : State} (h : Down s t) (ha : u.arb = t.arb) (hp : u.pos = t.pos) (hv : u.views = t.views) :
    Down s u := by
  have hview : ∀ c, u.view c = t.view c := fun c => by rw [State.view, State.view, hv]
  simp only [Down, ha, hp, hview]
  exact h

/-! ## DRIVE FAULT -/

/-- DRIVE FAULT entered: the state, the queue empty, the drive given up (R96, R152). -/
theorem enterDriveFault_down (s : State) :
    (enterDriveFault s).watch.st = .driveFault ∧ (enterDriveFault s).arb.queue = [] ∧ Down s (enterDriveFault s) := by
  unfold enterDriveFault
  simp only
  refine ⟨?watch, ?queue, down_of_halt fun c hc => ?attached⟩
  case watch =>
    rw [show (viewsUnusable _).watch = _ from (viewsUnusable_moves _).frame .watch (by decide),
      show (halt _).watch = _ from (halt_moves _).frame .watch (by decide), setWatchState_watch]
  case queue =>
    obtain ⟨⟨_, harb⟩, -, -⟩ := viewsUnusable_eq (halt (setWatchState .driveFault
      (emptyQueue .driveFault .nothing (endGate .driveFault .nothing _))))
    rw [harb, halt_arb]
    rfl
  case attached =>
    exact (emptyQueue_steady _ _ _).attached c ((endGate_steady _ _ _).attached c hc)

/-! ## Withdrawn orders -/

theorem reportGateEnd_not_hold {s : State} (h : s.watch.st ≠ .supplyHold) : reportGateEnd s = s :=
  if_neg fun hw => h hw.1

/-- An order withdrawn outside SUPPLY HOLD: the strobe drops, its issuer is told, and the next order may be offered
(R13). -/
theorem exec_orderWithdrawn {o : DriveOrder} {w : Carried} {s t : State} (ho : s.drive.offered = some o)
    (ht : s.drive.strobeTicks = 5) (hf : orderFailed o w (dropStrobe s) = t) (hw : t.watch.st ≠ .supplyHold) :
    exec (.orderWithdrawn w) s = .next (offerNext t) := by
  have hwatch : (offerNext t).watch.st ≠ .supplyHold := by
    rw [(offerNext_decides t).watch]
    exact hw
  simp only [exec, execOrderWithdrawn, ho, ht, hf, le_refl, if_true, reportGateEnd_not_hold hwatch]

theorem dropStrobe_touches (s : State) : TouchesOnly [.drive] s (dropStrobe s) := by
  intro p hp; cases p <;> first | rfl | simp at hp

/-! ## A CYLINDER order withdrawn -/

theorem onlyRaises_occurrence {f : Flag} {r : FirstRecord} {s t : State} (h : t.ev = s.ev.occurrence f r) :
    OnlyRaises [f] s t := by
  refine ⟨?_, ?_, fun g hg => ?_⟩
  · rw [h]; exact (EventUnit.occurrence_enables _ _ _).1
  · rw [h]; exact (EventUnit.occurrence_enables _ _ _).2
  · rw [h, EventUnit.record_occurrence, if_neg]
    rintro ⟨rfl, -, hn⟩
    simp [hn] at hg

/-- Positioner Control and the event unit after a first attempt without an answer: E9, and the position UNKNOWN (R93,
R102). -/
def noAnswer (n : Nat) (s : State) : State :=
  { raiseSole .seekTimeout (cylSelAddr n s.pos.lastSel) 0 s with
    pos := { s.pos with
      cyl := none, st := .clearing, stage := .recovery, ticks := none, last := some ⟨.noAnswer, some n⟩ } }

/-- The clearing step of the recovery follows (R93, R96). -/
theorem attemptFailed_noAnswer {n : Nat} {s : State} (hreq : s.pos.request = some (.seek n))
    (hretry : s.pos.retry = false) : attemptFailed .noAnswer s = requestOrder .faultClear (noAnswer n s) := by
  simp [attemptFailed, raiseAttempt, soughtCyl, hreq, hretry, startClearing, noAnswer, raiseSole, raise]

/-- A CYLINDER order of a first attempt withdrawn is a seek with no answer (R13, R93). -/
theorem cylinderWithdrawn {n : Nat} {w : Carried} {s : State} (ht : s.drive.strobeTicks = 5)
    (hold : s.watch.st ≠ .supplyHold) (ho : s.drive.offered = some (.cylinder n)) (hs : s.pos.st = .seeking)
    (hreq : s.pos.request = some (.seek n)) (hretry : s.pos.retry = false) :
    ∃ u, exec (.orderWithdrawn w) s = .next u
      ∧ u.pos = { s.pos with
          cyl := none, st := .clearing, stage := .recovery, ticks := none, last := some ⟨.noAnswer, some n⟩ }
      ∧ OrderAsked .faultClear u ∧ TouchesOnly [.pos, .drive, .ev] s u
      ∧ OnlyRaises [.sole .seekTimeout] s u
      ∧ (Open (.sole .seekTimeout) s → Recorded (.sole .seekTimeout) 0 u) := by
  have hfail : orderFailed (.cylinder n) w (dropStrobe s) = requestOrder .faultClear (noAnswer n (dropStrobe s)) :=
    (if_pos hs).trans (attemptFailed_noAnswer (s := dropStrobe s) hreq hretry)
  have hwatch : (requestOrder .faultClear (noAnswer n (dropStrobe s))).watch = s.watch := (requestOrder_decides _ _).watch
  obtain ⟨-, hpos, -, -, hev, -, -⟩ := requestOrder_same .faultClear (noAnswer n (dropStrobe s))
  obtain ⟨-, hpos', -, -, hev', -, -⟩ := offerNext_same (requestOrder .faultClear (noAnswer n (dropStrobe s)))
  have hraised := hev'.trans hev
  refine ⟨_, exec_orderWithdrawn ho ht hfail (hwatch ▸ hold), hpos'.trans hpos, (requestOrder_asked _ _).offerNext,
    ?frame, onlyRaises_occurrence hraised, fun h => ?recorded⟩
  case frame =>
    have hfail : TouchesOnly [.pos, .drive, .ev] s (noAnswer n (dropStrobe s)) := by
      intro p hp; cases p <;> first | rfl | simp at hp
    exact hfail.trans (((requestOrder_touches _ _).trans (offerNext_touches _)).mono (by decide))
  case recorded =>
    unfold Recorded
    rw [hraised]
    exact recorded_raise _ _ _ _ (dropStrobe s) h

/-! ## A FAULT CLEAR or RECALIBRATE withdrawn -/

/-- A step whose order is withdrawn has failed: E12, and DRIVE FAULT (R13, R94 to R96, R102). -/
theorem stepWithdrawn {o : DriveOrder} {b : Bool} {w : Carried} {s : State} (ht : s.drive.strobeTicks = 5)
    (ho : s.drive.offered = some o)
    (hfail : orderFailed o w (dropStrobe s) = stepFailed b .withdrawal (dropStrobe s)) :
    ∃ u, exec (.orderWithdrawn w) s = .next u ∧ u.watch.st = .driveFault ∧ u.arb.queue = [] ∧ Down s u
      ∧ TouchesOnly (.port .a :: .port .b :: .mbox :: .watch :: Part.reached) s u
      ∧ (Open (.sole .recalibrationFailed) s →
          Recorded (.sole .recalibrationFailed) (detailE12 s.pos.stage b .withdrawal) u) := by
  obtain ⟨hwatch, hqueue, hdown⟩ := enterDriveFault_down (raiseSole .recalibrationFailed (cylAddr 0)
    (detailE12 s.pos.stage b .withdrawal) (dropStrobe s))
  obtain ⟨harb, hpos, -, hviews, hev, -, -⟩ := offerNext_same (stepFailed b .withdrawal (dropStrobe s))
  have hmoves := stepFailed_moves b .withdrawal (dropStrobe s)
  refine ⟨_, exec_orderWithdrawn ho ht hfail ?notHold, ?watch, ?queue, hdown.of_same harb hpos hviews, ?frame,
    fun h => ?recorded⟩
  case notHold =>
    rw [show (stepFailed b .withdrawal (dropStrobe s)).watch.st = .driveFault from hwatch]
    simp
  case watch => rw [(offerNext_decides _).watch]; exact hwatch
  case queue => rw [harb]; exact hqueue
  case frame =>
    exact ((dropStrobe_touches s).mono (by decide)).trans
      ((hmoves.frame.mono (by decide)).trans ((offerNext_touches _).mono (by decide)))
  case recorded =>
    have hraise := recorded_raise (.sole .recalibrationFailed) none (cylAddr 0) (detailE12 s.pos.stage b .withdrawal)
      (dropStrobe s) h
    refine (hraise.keep (enterDriveFault_moves _).events).keep (.of_eq ?_)
    exact hev

/-! ## A recovery -/

/-- A clearing or recalibration step with no request in hand and the position UNKNOWN (R97). -/
structure Recovering (s : State) : Prop where
  st      : s.pos.st = .clearing
  request : s.pos.request = none
  cyl     : s.pos.cyl = none

/-- What an operation may do to Positioner Control and its order during a recovery: a seek is held, or the held one goes
(R91). -/
structure Recovers (s t : State) : Prop where
  pos   : t.pos = { s.pos with held := t.pos.held }
  asked : OrderAsked .faultClear s → OrderAsked .faultClear t

/-- The same, with every view and the usage counts left as they are. -/
structure Holds (s t : State) : Prop extends Recovers s t where
  views : t.views = s.views
  usage : t.arb.usage = s.arb.usage

theorem Recovers.trans {s t u : State} (h : Recovers s t) (k : Recovers t u) : Recovers s u where
  pos := by have a := k.pos; rw [h.pos] at a; exact a
  asked := k.asked ∘ h.asked

theorem Holds.trans {s t u : State} (h : Holds s t) (k : Holds t u) : Holds s u where
  toRecovers := h.toRecovers.trans k.toRecovers
  views := k.views.trans h.views
  usage := k.usage.trans h.usage

theorem Recovering.of_recovers {s t : State} (h : Recovering s) (k : Recovers s t) : Recovering t := by
  have hp := k.pos
  exact ⟨by rw [hp]; exact h.st, by rw [hp]; exact h.request, by rw [hp]; exact h.cyl⟩

theorem Recovering.of_pos {s t : State} (h : Recovering s) (hp : t.pos = s.pos) : Recovering t :=
  ⟨by rw [hp]; exact h.st, by rw [hp]; exact h.request, by rw [hp]; exact h.cyl⟩

/-- An update that leaves the drive port as it is, and of Positioner Control all but the held seek. -/
theorem Recovers.of_same {s t : State} (hp : t.pos = { s.pos with held := t.pos.held }) (hd : t.drive = s.drive) :
    Recovers s t :=
  ⟨hp, fun h => by rw [OrderAsked, hd]; exact h⟩

theorem Holds.of_same {s t : State} (hp : t.pos = { s.pos with held := t.pos.held }) (hd : t.drive = s.drive)
    (hv : t.views = s.views) (hu : t.arb.usage = s.arb.usage) : Holds s t :=
  ⟨.of_same hp hd, hv, hu⟩

theorem Holds.refl (s : State) : Holds s s := .of_same rfl rfl rfl rfl

/-- During a recovery a seek asked for is held (R91). -/
theorem askSeek_recovering {s : State} (h : Recovering s) (n : Nat) :
    askSeek n s = { s with pos := { s.pos with held := some n } } := by
  simp [askSeek, h.st, h.request]

theorem seekFor_holds {s : State} (h : Recovering s) (n : Nat) : Holds s (seekFor n s) := by
  have hasked : Recovering { s with arb := { s.arb with awaited := some n } } := h.of_pos rfl
  rw [seekFor, askSeek_recovering hasked]
  exact .of_same rfl rfl rfl rfl

theorem grantTo_holds {s : State} (h : Recovering s) (c : Chan) : Holds s (grantTo c s) := by
  unfold grantTo
  split
  · exact .refl s
  · rename_i p _
    have hcyl : s.pos.cyl ≠ some p.cyl := by simp [h.cyl]
    simp only [hcyl, if_false]
    refine Holds.trans ?_ (seekFor_holds (h.of_pos ?_) _)
    · exact .of_same rfl rfl rfl rfl
    · rfl

/-- A grant decision during a recovery: no view moves, and the winner's seek is held (R68, R91). -/
theorem decideGrant_holds {s : State} (h : Recovering s) : Holds s (decideGrant s) := by
  unfold decideGrant
  split
  · split
    · have hcyl : s.pos.cyl ≠ some 0 := by simp [h.cyl]
      simp only [grantInternal, hcyl, if_false]
      refine Holds.trans ?_ (seekFor_holds (h.of_pos ?_) _)
      · exact .of_same rfl rfl rfl rfl
      · rfl
    · split
      · exact .refl s
      · exact grantTo_holds h _
      · exact grantTo_holds h _
      · split
        · refine Holds.trans ?_ (grantTo_holds (h.of_pos ?_) _)
          · exact .of_same rfl rfl rfl rfl
          · rfl
        · exact grantTo_holds h _
  · exact .refl s

theorem toFree_holds {s : State} (h : Recovering s) : Holds s (toFree s) := by
  refine Holds.trans ?_ (decideGrant_holds (h.of_pos ?_))
  · exact .of_same rfl rfl rfl rfl
  · rfl

/-- The HEAD orders discarded are none of Positioner Control's (R104). -/
theorem discardHeads_holds (i : HeadIssuer) (s : State) : Holds s (discardHeads i s) :=
  ⟨⟨rfl, fun h => h.imp_right fun hm => List.mem_filter.2 ⟨hm, rfl⟩⟩, rfl, rfl⟩

theorem headAtGrantEnd_holds (c : Chan) (s : State) : Holds s (headAtGrantEnd c s) := by
  refine Holds.trans ?_ (discardHeads_holds _ _)
  exact .of_same rfl rfl rfl rfl

theorem grantEnd_driveFault (x : Chan) (s : State) :
    grantEnd x .driveFault s = toFree (headAtGrantEnd x (viewGrantEnd x (charge x s))) := by
  simp [grantEnd]

theorem viewGrantEnd_recovers (c : Chan) (s : State) : Recovers s (viewGrantEnd c s) := by
  unfold viewGrantEnd
  split <;> exact .of_same rfl rfl

/-- The end of the owner's grant during a recovery: the decision after it holds what it seeks. -/
theorem grantEnd_holds {s : State} (h : Recovering s) (x : Chan) :
    Recovers s (viewGrantEnd x (charge x s)) ∧ Holds (viewGrantEnd x (charge x s)) (grantEnd x .driveFault s) := by
  have hcharge : Recovers s (charge x s) := .of_same rfl rfl
  have hview := hcharge.trans (viewGrantEnd_recovers x _)
  have hhead := headAtGrantEnd_holds x (viewGrantEnd x (charge x s))
  refine ⟨hview, ?_⟩
  rw [grantEnd_driveFault]
  exact hhead.trans (toFree_holds ((h.of_recovers hview).of_recovers hhead.toRecovers))

theorem claimEnd_recovers {s : State} (h : Recovering s) (c : Chan) (b : Bool) : Recovers s (claimEnd c b s) := by
  have hcharge : Recovers s { (if b then charge c s else s) with pos := { s.pos with held := none } } := by
    cases b <;> exact .of_same rfl rfl
  have hhead := hcharge.trans (headAtGrantEnd_holds c _).toRecovers
  exact hhead.trans (toFree_holds (h.of_recovers hhead)).toRecovers

theorem internalEnds_recovers {s : State} (h : Recovering s) : Recovers s (internalEnds s) := by
  have hhead : Recovers s (discardHeads .mapStore
      { s with arb := { s.arb with st := .free, awaited := none, queue := s.arb.queue.tail },
               map := { s.map with xfer := .none } }) := by
    refine Recovers.trans ?_ (discardHeads_holds .mapStore _).toRecovers
    exact .of_same rfl rfl
  exact hhead.trans (decideGrant_holds (h.of_recovers hhead)).toRecovers

/-- Step 3 of R97 leaves the recovery as it was begun. -/
theorem endAtFault_recovers {s : State} (h : Recovering s) : Recovers s (endAtFault s) := by
  unfold endAtFault
  split
  · obtain ⟨hview, hends⟩ := grantEnd_holds h _
    exact hview.trans hends.toRecovers
  · exact internalEnds_recovers h
  · unfold claimAtFault
    split
    · exact .of_same rfl rfl
    · exact claimEnd_recovers h _ _
  · exact (Holds.refl s).toRecovers
  · exact (Holds.refl s).toRecovers

/-! ## A HEAD order withdrawn in RUNNING -/

/-- Step 2 of R97: the position UNKNOWN, nothing in hand, and the clearing step asked for. -/
def beginRecovery (s : State) : State :=
  startClearing .recovery { s with pos := { s.pos with cyl := none, request := none, held := none, retry := false } }

theorem faultWhileRunning_eq (w : Carried) (s : State) :
    faultWhileRunning w s =
      endAtFault (beginRecovery (commitAtFault w (cutInternal .driveFault w (cutAtFault w s)))) := rfl

theorem beginRecovery_same (s : State) :
    (beginRecovery s).pos = { s.pos with cyl := none, request := none, held := none, retry := false, st := .clearing,
                                          stage := .recovery, ticks := none }
      ∧ (beginRecovery s).arb = s.arb ∧ (beginRecovery s).views = s.views := by
  obtain ⟨harb, hpos, -, hviews, -⟩ := requestOrder_same .faultClear
    { s with pos := { s.pos with cyl := none, request := none, held := none, retry := false, st := .clearing,
                                 stage := .recovery, ticks := none } }
  exact ⟨hpos, harb, hviews⟩

theorem beginRecovery_recovering (s : State) : Recovering (beginRecovery s) := by
  have hp := (beginRecovery_same s).1
  exact ⟨by rw [hp], by rw [hp], by rw [hp]⟩

/-- Positioner Control after a drive FAULT while running: the recovery, with at most a seek held for its end, the
selection last ordered kept (R97). -/
theorem faultWhileRunning_pos (w : Carried) (s : State) :
    let p := (faultWhileRunning w s).pos
    p.st = .clearing ∧ p.stage = .recovery ∧ p.cyl = none ∧ p.lastSel = s.pos.lastSel ∧ p.request = none
      ∧ p.retry = false ∧ OrderAsked .faultClear (faultWhileRunning w s) := by
  have hlast := (faultWhileRunning_steady w s).lastSel
  rw [faultWhileRunning_eq] at hlast ⊢
  obtain ⟨hpos, hasked⟩ := endAtFault_recovers (beginRecovery_recovering
    (commitAtFault w (cutInternal .driveFault w (cutAtFault w s))))
  have hbegun := (beginRecovery_same (commitAtFault w (cutInternal .driveFault w (cutAtFault w s)))).1
  rw [hbegun] at hpos
  refine ⟨?_, ?_, ?_, hlast, ?_, ?_, hasked (requestOrder_asked _ _)⟩ <;> rw [hpos]

/-- With no gate up and no transfer in hand nothing is cut (R97 step 1). -/
theorem faultWhileRunning_no_gate {w : Carried} {s : State} (hg : s.relay.gate = none) (hx : s.map.xfer = .none)
    (hi : s.arb.st ≠ .internal) : faultWhileRunning w s = endAtFault (beginRecovery s) := by
  have hcut : cutAtFault w s = s := by simp [cutAtFault, activeChan, hg]
  have hint : cutInternal .driveFault w s = s := by simp [cutInternal, hx]
  have hcommit : commitAtFault w s = s := if_neg fun h => hi h.1
  rw [faultWhileRunning_eq, hcut, hint, hcommit]

/-- The owner's grant ends, charged, its view in STANDBY with its target (R75, R97). -/
theorem faultWhileRunning_owner {w : Carried} {s : State} {x : Chan} (hg : s.relay.gate = none)
    (hx : s.map.xfer = .none) (ho : s.arb.st = .owned x) (hv : (s.view x).st = .positioned) :
    ((faultWhileRunning w s).view x).st = .standby
      ∧ ((faultWhileRunning w s).view x).target = (s.view x).target
      ∧ (faultWhileRunning w s).arb.usage = chargedUsage s.arb.usage x s.arb.held := by
  obtain ⟨-, harb, hviews⟩ := beginRecovery_same s
  have hview : (beginRecovery s).view x = s.view x := congrArg (·.get x) hviews
  have hend : endAtFault (beginRecovery s) = grantEnd x .driveFault (beginRecovery s) := by
    simp only [endAtFault, harb, ho]
  obtain ⟨-, hends⟩ := grantEnd_holds (beginRecovery_recovering s) x
  have hstandby : viewGrantEnd x (charge x (beginRecovery s)) =
      setViewState x .standby (charge x (beginRecovery s)) := if_pos (hview ▸ hv)
  rw [hstandby] at hends
  rw [faultWhileRunning_no_gate hg hx (by simp [ho]), hend]
  have hviewEnd : (grantEnd x .driveFault (beginRecovery s)).view x = { s.view x with st := .standby } := by
    rw [State.view, hends.views, ← State.view, setViewState_view, if_pos rfl, ← hview]
    rfl
  refine ⟨by rw [hviewEnd], by rw [hviewEnd], ?_⟩
  rw [hends.usage, ← harb]
  rfl

/-- A claim goes on: its seek is held for the recovery's end (log 16). -/
theorem faultWhileRunning_claim {w : Carried} {s : State} {c : Chan} {k : ClaimKind} {p : Place}
    (hg : s.relay.gate = none) (hx : s.map.xfer = .none) (hc : s.arb.st = .claimed c k)
    (hp : s.arb.request.get c = some p) :
    (faultWhileRunning w s).arb = { s.arb with awaited := some p.cyl }
      ∧ (faultWhileRunning w s).pos.held = some p.cyl ∧ (faultWhileRunning w s).views = s.views := by
  obtain ⟨-, harb, hviews⟩ := beginRecovery_same s
  rw [faultWhileRunning_no_gate hg hx (by simp [hc])]
  simp only [endAtFault, harb, hc, claimAtFault, hp]
  exact ⟨trivial, trivial, hviews⟩

/-- A HEAD order withdrawn in RUNNING is a drive FAULT while running without E13 and E10 (R13, R99; log 16). -/
theorem headWithdrawn_running {sel : Sel} {issuer : HeadIssuer} {w : Carried} {s : State}
    (ht : s.drive.strobeTicks = 5) (ho : s.drive.offered = some (.head sel issuer)) (hr : s.watch.st = .running) :
    ∃ u, exec (.orderWithdrawn w) s = .next u
      ∧ u.pos.st = .clearing ∧ u.pos.stage = .recovery ∧ u.pos.cyl = none ∧ u.pos.lastSel = s.pos.lastSel
      ∧ u.pos.request = none ∧ u.pos.retry = false ∧ OrderAsked .faultClear u ∧ u.watch = s.watch
      ∧ TouchesOnly (.port .a :: .port .b :: .mbox :: Part.reached) s u
      ∧ u.ev.record (.sole .driveFaultLine) = s.ev.record (.sole .driveFaultLine)
      ∧ u.ev.record (.sole .seekError) = s.ev.record (.sole .seekError)
      ∧ (s.relay.gate = none → s.map.xfer = .none →
          (∀ x, s.arb.st = .owned x → (s.view x).st = .positioned → s.arb.request.get x = none →
            (u.view x).st = .standby ∧ (u.view x).target = (s.view x).target
              ∧ u.arb.usage = chargedUsage s.arb.usage x s.arb.held)
            ∧ (∀ c k p, s.arb.st = .claimed c k → s.arb.request.get c = some p →
              u.arb = { s.arb with awaited := some p.cyl } ∧ u.pos.held = some p.cyl
                ∧ u.views = s.views)) := by
  have hfail : orderFailed (.head sel issuer) w (dropStrobe s) = faultWhileRunning w (discardSteps (dropStrobe s)) :=
    if_pos hr
  have hmoves := faultWhileRunning_moves w (discardSteps (dropStrobe s))
  have hwatch : (faultWhileRunning w (discardSteps (dropStrobe s))).watch = s.watch := hmoves.frame .watch (by decide)
  obtain ⟨harb, hpos, -, hviews, hev, -, -⟩ := offerNext_same (faultWhileRunning w (discardSteps (dropStrobe s)))
  obtain ⟨hst, hstage, hcyl, hlast, hreq, hretry, hasked⟩ := faultWhileRunning_pos w (discardSteps (dropStrobe s))
  have hflags := (faultWhileRunning_steady w (discardSteps (dropStrobe s))).flags
  have hview : ∀ c, (offerNext (faultWhileRunning w (discardSteps (dropStrobe s)))).view c =
      (faultWhileRunning w (discardSteps (dropStrobe s))).view c := fun c => congrArg (·.get c) hviews
  refine ⟨_, exec_orderWithdrawn ho ht hfail (by simp [hwatch, hr]), (congrArg (·.st) hpos).trans hst,
    (congrArg (·.stage) hpos).trans hstage, (congrArg (·.cyl) hpos).trans hcyl, (congrArg (·.lastSel) hpos).trans hlast,
    (congrArg (·.request) hpos).trans hreq, (congrArg (·.retry) hpos).trans hretry, hasked.offerNext, ?watch, ?frame,
    ?driveFaultLine, ?seekError, fun hg hx => ⟨fun x hown hv _ => ?owner, fun c k p hc hp => ?claim⟩⟩
  case watch => exact (offerNext_decides _).watch.trans hwatch
  case frame =>
    have hdrop : TouchesOnly Part.gated s (discardSteps (dropStrobe s)) := by
      intro p hp; cases p <;> first | rfl | simp [Part.gated, Part.reached] at hp
    exact hdrop.trans (hmoves.frame.trans ((offerNext_touches _).mono (by decide)))
  case driveFaultLine => rw [hev]; exact hflags _ (by decide)
  case seekError => rw [hev]; exact hflags _ (by decide)
  case owner =>
    rw [hview, harb]
    exact faultWhileRunning_owner (s := discardSteps (dropStrobe s)) hg hx hown hv
  case claim =>
    rw [harb, hpos, hviews]
    exact faultWhileRunning_claim (s := discardSteps (dropStrobe s)) hg hx hc hp

/-! ## A HEAD order withdrawn in READING MAP or READING LABEL -/

/-- What the interruption of a transfer and a halt may reach: no view, no interlock. -/
def Part.interrupted : List Part := [.map, .arb, .pos, .drive, .relay, .ev]

theorem touches_interrupted (s : State) (m : MapStore) (a : Arbiter) (p : Positioner) (d : DrivePort) (r : Relay)
    (e : EventUnit) (f : Nat) :
    TouchesOnly Part.interrupted s { s with map := m, arb := a, pos := p, drive := d, relay := r, ev := e, free := f } :=
  fun q hq => by cases q <;> first | rfl | simp [Part.interrupted] at hq

theorem raiseSole_interrupted (e : SoleEvent) (p : PartAddr) (n : Nat) (s : State) :
    TouchesOnly Part.interrupted s (raiseSole e p n s) := touches_interrupted s _ _ _ _ _ _ _

theorem dropDriveGates_interrupted (s : State) : TouchesOnly Part.interrupted s (dropDriveGates s) :=
  (touches_interrupted s s.map s.arb s.pos _ s.relay s.ev s.free).trans ((offerNext_touches _).mono (by decide))

theorem addTorn_interrupted (e : TornEntry) (s : State) : TouchesOnly Part.interrupted s (addTorn e s) := by
  unfold addTorn
  simp only
  split
  · split <;> exact touches_interrupted s _ _ _ _ _ _ _
  · exact touches_interrupted s _ _ _ _ _ _ _

theorem cutInternal_interrupted (k : TearCause) (w : Carried) (s : State) :
    TouchesOnly Part.interrupted s (cutInternal k w s) := by
  unfold cutInternal
  split
  · rename_i v _
    have hshow : TouchesOnly Part.interrupted s (showInternalWrite v w s) := by
      unfold showInternalWrite
      split
      · exact touches_interrupted s _ _ _ _ _ _ _
      · exact .refl _ s
    have hdrop := hshow.trans (dropDriveGates_interrupted _)
    simp only
    split
    · exact hdrop.trans (touches_interrupted _ _ _ _ _ _ _ _)
    · exact hdrop.trans (addTorn_interrupted _ _)
  · exact dropDriveGates_interrupted s
  all_goals exact .refl _ s

theorem commitFails_interrupted (n : Nat) (p : PartAddr) (s : State) :
    TouchesOnly Part.interrupted s (commitFails n p s) := by
  unfold commitFails
  split
  · exact touches_interrupted s _ _ _ _ _ _ _
  · exact .refl _ s

theorem runningCommitFails_interrupted (b : Bool) (w : Carried) (s : State) :
    TouchesOnly Part.interrupted s (runningCommitFails b w s) := by
  have hdrawn : TouchesOnly Part.interrupted s { s with free := s.free + 1 } := touches_interrupted s _ _ _ _ _ _ _
  unfold runningCommitFails
  simp only
  split
  · split
    · exact commitFails_interrupted _ _ s
    · split
      · exact commitFails_interrupted _ _ s
      · exact hdrawn.trans (commitFails_interrupted _ _ _)
  · exact hdrawn.trans (commitFails_interrupted _ _ _)
  · exact hdrawn.trans (commitFails_interrupted _ _ _)
  · exact hdrawn.trans (commitFails_interrupted _ _ _)
  all_goals exact commitFails_interrupted _ _ s

theorem emptyQueue_interrupted (k : TearCause) (w : Carried) (s : State) :
    TouchesOnly Part.interrupted s (emptyQueue k w s) := by
  have hremoved : TouchesOnly Part.interrupted (cutInternal k w s) (removedCommitFails w (cutInternal k w s)) := by
    unfold removedCommitFails
    split
    · exact runningCommitFails_interrupted _ w _
    · split
      · exact commitFails_interrupted _ _ _
      · exact .refl _ _
  exact ((cutInternal_interrupted k w s).trans hremoved).trans (touches_interrupted _ _ _ _ _ _ _ _)

theorem halt_interrupted (s : State) : TouchesOnly Part.interrupted s (halt s) :=
  (touches_interrupted s _ _ _ _ _ s.ev s.free).trans ((offerNext_touches _).mono (by decide))

theorem halt_map (s : State) : (halt s).map = { s.map with xfer := .none } := by
  unfold halt haltPositioner
  rw [(offerNext_same _).2.2.1]
  rfl

theorem halt_trouble (s : State) : driveTroubled (halt s) = driveTroubled s := by
  unfold halt haltPositioner
  rw [(offerNext_steady _).trouble]
  rfl

/-- Positioner Control in the first step of a calibration (R100). -/
def Positioner.calibrating (p : Positioner) (st : PosState) : Positioner :=
  { p with request := some .calibration, retry := false, st := st, stage := .calibration, ticks := none }

theorem askCalibration_eq {s : State} (h : s.pos.st = .halted) :
    askCalibration s =
      if driveTroubled s = true then requestOrder .faultClear { s with pos := s.pos.calibrating .clearing }
      else requestOrder .recalibrate { s with pos := s.pos.calibrating .recalibrating } := if_pos h

/-- A calibration asked for in HALTED: the clearing step first where the drive is troubled (R92, R100). -/
theorem askCalibration_halted {s : State} (h : s.pos.st = .halted) :
    (askCalibration s).pos.request = some .calibration ∧ (askCalibration s).pos.lastSel = s.pos.lastSel
      ∧ (if driveTroubled s then (askCalibration s).pos.st = .clearing ∧ OrderAsked .faultClear (askCalibration s)
         else (askCalibration s).pos.st = .recalibrating ∧ OrderAsked .recalibrate (askCalibration s))
      ∧ TouchesOnly [.pos, .drive] s (askCalibration s) := by
  have hframe : ∀ (o : DriveOrder) (p : Positioner), TouchesOnly [.pos, .drive] s (requestOrder o { s with pos := p }) :=
    fun o p => TouchesOnly.trans (fun q hq => by cases q <;> first | rfl | simp at hq)
      ((requestOrder_touches o _).mono (by decide))
  have hpos : ∀ (o : DriveOrder) (p : Positioner), (requestOrder o { s with pos := p }).pos = p :=
    fun o p => (requestOrder_same o _).2.1
  rw [askCalibration_eq h]
  split
  · rw [hpos]
    exact ⟨rfl, rfl, ⟨rfl, requestOrder_asked _ _⟩, hframe _ _⟩
  · rw [hpos]
    exact ⟨rfl, rfl, ⟨rfl, requestOrder_asked _ _⟩, hframe _ _⟩

/-- Trouble in a reading state: the transfer is interrupted, the part halted, and the drive calibrated again (R152). -/
theorem restartReading_effect (w : Carried) (s : State) :
    let u := restartReading w s
    u.watch = { s.watch with st := .calibrating } ∧ u.arb.st = .halted ∧ u.arb.queue = [] ∧ u.map.xfer = .none
      ∧ u.pos.request = some .calibration ∧ u.pos.lastSel = none
      ∧ (if driveTroubled s then u.pos.st = .clearing ∧ OrderAsked .faultClear u
         else u.pos.st = .recalibrating ∧ OrderAsked .recalibrate u)
      ∧ TouchesOnly [.map, .arb, .pos, .drive, .relay, .watch, .ev] s u := by
  have hstopped := (emptyQueue_interrupted .driveFault w s).trans (halt_interrupted _)
  have htrouble : driveTroubled (setWatchState .calibrating (halt (emptyQueue .driveFault w s))) = driveTroubled s :=
    (halt_trouble _).trans (emptyQueue_steady _ w s).trouble
  have hpos := halt_pos (emptyQueue .driveFault w s)
  obtain ⟨hreq, hlast, hstep, hframe⟩ := askCalibration_halted
    (s := setWatchState .calibrating (halt (emptyQueue .driveFault w s))) (congrArg (·.st) hpos)
  have hwatch : (halt (emptyQueue .driveFault w s)).watch = s.watch := hstopped .watch (by decide)
  have harb : (restartReading w s).arb = (halt (emptyQueue .driveFault w s)).arb := hframe .arb (by decide)
  have hmap : (restartReading w s).map = (halt (emptyQueue .driveFault w s)).map := hframe .map (by decide)
  have hwatch' : (restartReading w s).watch = (setWatchState .calibrating (halt (emptyQueue .driveFault w s))).watch :=
    hframe .watch (by decide)
  rw [setWatchState_watch, hwatch] at hwatch'
  refine ⟨hwatch', ?_, ?_, ?_, hreq, hlast.trans (congrArg (·.lastSel) hpos), htrouble ▸ hstep, ?frame⟩
  · rw [harb, halt_arb]
  · rw [harb, halt_arb]; rfl
  · rw [hmap, halt_map]
  case frame =>
    have hset : ∀ t, TouchesOnly [.watch] t (setWatchState .calibrating t) := fun t p hp => by
      cases p <;> first | rfl | simp at hp
    exact (hstopped.mono (by decide)).trans (((hset _).mono (by decide)).trans (hframe.mono (by decide)))

/-- The Map Store's HEAD order withdrawn in a reading state (R13, R152). -/
theorem headWithdrawn_reading {sel : Sel} {issuer : HeadIssuer} {w : Carried} {s : State}
    (ht : s.drive.strobeTicks = 5) (ho : s.drive.offered = some (.head sel issuer))
    (hr : s.watch.st = .readingMap ∨ s.watch.st = .readingLabel) :
    ∃ u, exec (.orderWithdrawn w) s = .next u ∧ u.watch = { s.watch with st := .calibrating }
      ∧ u.arb.st = .halted ∧ u.arb.queue = [] ∧ u.map.xfer = .none ∧ u.pos.request = some .calibration
      ∧ u.pos.lastSel = none
      ∧ (if driveTroubled s then u.pos.st = .clearing ∧ OrderAsked .faultClear u
         else u.pos.st = .recalibrating ∧ OrderAsked .recalibrate u)
      ∧ TouchesOnly [.map, .arb, .pos, .drive, .relay, .watch, .ev] s u := by
  have hrunning : (dropStrobe s).watch.st ≠ .running := by
    rcases hr with h | h <;> simp [dropStrobe, h]
  have hfail : orderFailed (.head sel issuer) w (dropStrobe s) = restartReading w (dropStrobe s) :=
    (if_neg hrunning).trans (if_pos (decide_eq_true hr))
  obtain ⟨hwatch, harb, hqueue, hmap, hreq, hlast, hstep, hframe⟩ := restartReading_effect w (dropStrobe s)
  obtain ⟨oarb, opos, omap, -⟩ := offerNext_same (restartReading w (dropStrobe s))
  refine ⟨_, exec_orderWithdrawn ho ht hfail (by simp [hwatch]), (offerNext_decides _).watch.trans hwatch, ?_, ?_, ?_, ?_,
    ?_, ?step, ((dropStrobe_touches s).mono (by decide)).trans (hframe.trans ((offerNext_touches _).mono (by decide)))⟩
  case step =>
    rw [show driveTroubled (dropStrobe s) = driveTroubled s from rfl] at hstep
    rw [opos]
    split at hstep
    · rename_i hd
      rw [if_pos hd]
      exact ⟨hstep.1, hstep.2.offerNext⟩
    · rename_i hd
      rw [if_neg hd]
      exact ⟨hstep.1, hstep.2.offerNext⟩
  · rw [oarb, harb]
  · rw [oarb, hqueue]
  · rw [omap, hmap]
  · rw [opos, hreq]
  · rw [opos, hlast]

/-- Settles O39: by the order withdrawn, and for a HEAD order by Drive Watch's state. -/
theorem orderWithdrawn : Obligations.OrderWithdrawn := by
  intro w s ht hold
  refine ⟨fun n ho hs hreq hretry => cylinderWithdrawn ht hold ho hs hreq hretry, ?step,
    fun sel issuer ho hr => headWithdrawn_running ht ho hr, fun v ho hr => headWithdrawn_reading ht ho hr⟩
  case step =>
    rintro (⟨ho, hs⟩ | ⟨ho, hs⟩)
    · have h := stepWithdrawn (w := w) (b := false) ht ho (if_pos hs)
      simpa [hs, detailE12, StepCause.code] using h
    · have h := stepWithdrawn (w := w) (b := true) ht ho (if_pos hs)
      simpa [hs, detailE12, StepCause.code] using h

end Sys2Proof.Machine
end

section
/-! The laws of the part right after reset. -/

namespace Sys2Proof.Machine

theorem reset_view (c : Chan) : State.reset.view c = .initial := by cases c <;> rfl

/-- E29 is the one flag set at power-on, and its alarm enable is clear (R158, R160). -/
theorem reset_contact : ContactLaw State.reset := by
  have hdue : EventUnit.poweredOn.alarmDue ≠ true := by
    rw [ne_eq, EventUnit.alarmDue_iff]
    rintro ⟨f, hset, halarm⟩
    rw [poweredOn_record] at hset
    rw [poweredOn_alarmEnable] at halarm
    split at hset
    · rename_i hf
      subst hf
      simp at halarm
    · simp at hset
  exact (Bool.eq_false_iff.2 hdue).symm

/-- Nobody has the actuator, nothing is in hand, and both views are DETACHED (R18, R64). -/
theorem reset_ownership : Ownership State.reset := by
  have hst : ∀ c, (State.reset.view c).st = .detached := fun c => by rw [reset_view]; rfl
  refine ⟨⟨nofun, nofun⟩, ⟨rfl, rfl⟩, nofun, ⟨fun c => ⟨?gate, ?idle⟩, nofun⟩, fun h => absurd rfl h,
    fun c => ⟨?target, ?deferred⟩, fun _ _ c => .inl (hst c), ⟨nofun, nofun⟩⟩
  case gate => rw [hst]; exact ⟨nofun, nofun⟩
  case idle => rw [hst]; nofun
  case target => rw [hst]; simp
  case deferred => rw [hst]; nofun

/-- Settles O4: law by law, from the initial values of the blocks. -/
theorem lawsHoldAtReset : Obligations.LawsHoldAtReset := by
  refine ⟨reset_contact, ⟨?_, ?_⟩, ⟨?_, ?_⟩, ⟨?_, ?_, ?_, rfl, rfl⟩, ⟨?_, fun k => initialised_posted _ _ _ _ _ _ k⟩,
    ⟨rfl, rfl⟩, ⟨?_, ?_⟩, Nat.zero_le 12, ⟨⟨?_, ?_, ?_⟩, ⟨?_, ?_, ?_⟩, ?_, ?_, ?_, ?_⟩, reset_ownership⟩ <;> decide

end Sys2Proof.Machine
end

section
/-! What arrives at a channel port: the meanings of its orders and gates on the part in which they stand, and the statements
that need no grant decision. -/

namespace Sys2Proof.Machine

/-! ## Orders that are taken -/

/-- The part in which an order that is taken has its effect: the strobe high, the idle count 0 (R2, R44). -/
def strobed (c : Chan) (s : State) : State :=
  setPort c { s.port c with strobe := true } (setView c { s.view c with idle := 0 } s)

/-- The acknowledgement of an order (R2). -/
def acknowledge (c : Chan) (s : State) : State := setPort c { s.port c with ack := true } s

/-- An order that is taken has its effect, and is acknowledged unless it is withheld (R2, R3, R44). -/
theorem orderArrives_taken {c : Chan} {s : State} (h : TakesOrders s c) (withheld : Bool) (f : State → State) :
    orderArrives c withheld f s = if withheld then f (strobed c s) else acknowledge c (f (strobed c s)) := by
  have hidle : idleToZero c (setPort c { s.port c with strobe := true } s) = strobed c s := by
    simp [idleToZero, h.1, strobed, setView_setPort]
  have htaken : ((s.port c).ack || decide ((s.view c).st = .detached)) = false := by simp [h.1, h.2]
  unfold orderArrives
  simp only [htaken, Bool.false_eq_true, if_false, hidle]
  rfl

/-- An acknowledged order that sets the view alone. -/
theorem acknowledge_strobed {c : Chan} {v : View} {s : State} (hv : v.idle = 0) :
    acknowledge c (setView c v (strobed c s)) = orderDone c v s := by
  have hsame : { v with idle := 0 } = v := by cases v; cases hv; rfl
  rw [orderDone, hsame]
  simp [acknowledge, strobed, setView_setPort]

theorem acknowledge_strobed_same (c : Chan) (s : State) : acknowledge c (strobed c s) = orderDone c (s.view c) s := by
  simp [acknowledge, strobed, orderDone]

@[simp] theorem strobed_view (c : Chan) (s : State) : (strobed c s).view c = { s.view c with idle := 0 } := by
  simp [strobed]

/-- A view that is not TRANSFERRING has no gate to withhold an order for (R3, R29). -/
theorem exec_cylinderOrder {c : Chan} {s : State} (h : TakesOrders s c) (hv : (s.view c).st ≠ .transferring)
    (value : BitVec 10) (w : Carried) :
    exec (.cylinderOrder c value w) s = .next (acknowledge c (cylinderEffect c value.toNat w (strobed c s))) := by
  simp [exec, execCylinderOrder, orderArrives_taken h, withheldInGate, hv]

theorem exec_headOrder {c : Chan} {s : State} (h : TakesOrders s c) (hv : (s.view c).st ≠ .transferring)
    (bus : BitVec 10) (w : Carried) :
    exec (.headOrder c bus w) s = .next (acknowledge c (headEffect c (headSel bus) w (strobed c s))) := by
  simp [exec, execHeadOrder, orderArrives_taken h, withheldInGate, hv]

theorem exec_faultClear {c : Chan} {s : State} (h : TakesOrders s c) :
    exec (.faultClear c) s = .next (acknowledge c (faultClearEffect c (strobed c s))) := by
  simp [exec, execFaultClear, orderArrives_taken h]

theorem exec_report {c : Chan} {s : State} (h : TakesOrders s c) :
    exec (.report c) s = .next (acknowledge c (reportEffect c (strobed c s))) := by
  simp [exec, execReport, orderArrives_taken h]

/-- The translation at an order overwrites the SEEK ERROR mark (R22, R26). -/
theorem translateOrder_clearSeekError (c : Chan) (n : Nat) (s : State) :
    translateOrder c n (clearSeekError c s) = translateOrder c n s := by
  have htranslate : translate (clearSeekError c s) c (s.view c).sel.vol n = translate s c (s.view c).sel.vol n := rfl
  have hsel : ((clearSeekError c s).view c).sel = (s.view c).sel := by simp [clearSeekError]
  unfold translateOrder
  simp only [hsel, htranslate]
  cases translate s c (s.view c).sel.vol n with
  | unusable => cases c <;> rfl
  | unmapped => cases c <;> rfl
  | mapped t => cases c <;> rfl

theorem recalibrateEffect_eq {c : Chan} {s : State} (hv : (s.view c).st ≠ .transferring) (w : Carried) :
    recalibrateEffect c s = cylinderEffect c 0 w s := by
  have hst : ((clearSeekError c s).view c).st = (s.view c).st := by simp [clearSeekError]
  have hfailed : setView c ((clearSeekError c s).view c).seekFailed (clearSeekError c s) =
      setView c (s.view c).seekFailed s := by cases c <;> rfl
  unfold recalibrateEffect cylinderEffect
  rw [hst, hfailed]
  cases hs : (s.view c).st <;> simp only [translateOrder_clearSeekError]
  case transferring => exact absurd hs hv

/-- A RECALIBRATE is a CYLINDER order for logical cylinder 0, but for a gate in TRANSFERRING (R26). -/
theorem exec_recalibrate {c : Chan} {s : State} (h : TakesOrders s c) (hv : (s.view c).st ≠ .transferring)
    (w : Carried) : exec (.recalibrate c) s = exec (.cylinderOrder c 0#10 w) s := by
  have heffect : recalibrateEffect c (strobed c s) = cylinderEffect c 0 w (strobed c s) :=
    recalibrateEffect_eq (by simpa using hv) w
  rw [exec_cylinderOrder h hv]
  simp [exec, execRecalibrate, orderArrives_taken h, heffect]

/-- What a CYLINDER order does, a RECALIBRATE does with it as logical cylinder 0. -/
theorem exec_recalibrate_eq {c : Chan} {s : State} {r : Host.Outcome State Fault Refusal} {value : BitVec 10}
    {w : Carried} (h : TakesOrders s c) (hv : (s.view c).st ≠ .transferring)
    (he : exec (.cylinderOrder c value w) s = r) (h0 : value = 0#10) : exec (.recalibrate c) s = r := by
  subst h0
  rw [exec_recalibrate h hv w, he]

/-! ## FAULTED, and REPORT -/

theorem cylinderEffect_faulted {c : Chan} {s : State} (h : (s.view c).st = .faulted) (n : Nat) (w : Carried) :
    cylinderEffect c n w s = s := by simp [cylinderEffect, h]

theorem headEffect_faulted {c : Chan} {s : State} (h : (s.view c).st = .faulted) (sel : Sel) (w : Carried) :
    headEffect c sel w s = s := by simp [headEffect, h]

/-- A FAULTED view acknowledges an order without an effect (R24 to R26). -/
theorem exec_faulted {c : Chan} {s : State} {i : Instr} {value bus : BitVec 10} {w : Carried} (h : TakesOrders s c)
    (hf : (s.view c).st = .faulted) (hi : i ∈ [Instr.cylinderOrder c value w, .headOrder c bus w, .recalibrate c]) :
    exec i s = .next (orderDone c (s.view c) s) := by
  have hv : (s.view c).st ≠ .transferring := by simp [hf]
  have hs : ((strobed c s).view c).st = .faulted := by simpa using hf
  have hcyl : ∀ x, exec (.cylinderOrder c x w) s = .next (orderDone c (s.view c) s) := fun x => by
    rw [exec_cylinderOrder h hv, cylinderEffect_faulted hs, acknowledge_strobed_same]
  simp only [List.mem_cons, List.not_mem_nil, or_false] at hi
  rcases hi with rfl | rfl | rfl
  · exact hcyl value
  · rw [exec_headOrder h hv, headEffect_faulted hs, acknowledge_strobed_same]
  · rw [exec_recalibrate h hv w, hcyl]

/-- The fields of a REPORT word, least significant first: the fault cause, the slot, the causes (R169). -/
theorem reportWord_toNat (k : Causes) (l : List (Fin 24)) (f : FaultCause) :
    (reportWord k l f).toNat = k.bits + oldestSlot l * 2 ^ 3 + f.code ∧ oldestSlot l < 32 ∧ f.code < 8 := by
  have hslot : oldestSlot l < 32 := by
    cases l with
    | nil => decide
    | cons x _ => exact x.isLt.trans (by decide)
  have hcode : f.code < 8 := by cases f <;> decide
  have hbit : ∀ b : Bool, b.toNat ≤ 1 := Bool.toNat_le
  have hbits : k.bits < 2 ^ 16 - 2 ^ 8 + 1 := by
    have := hbit k.mailboxNotice; have := hbit k.cartridgeChanged; have := hbit k.peerDetached
    have := hbit k.peerAttached; have := hbit k.mapChanged; have := hbit k.peerTornWrite
    have := hbit k.preempted; have := hbit k.attached
    unfold Causes.bits
    omega
  refine ⟨?_, hslot, hcode⟩
  rw [reportWord, BitVec.toNat_ofNat, Nat.mod_eq_of_lt (by omega)]

/-- Bits 15 to 8 of a REPORT word are the causes, one bit each (R169). -/
theorem reportWord_causes (k : Causes) (l : List (Fin 24)) (f : FaultCause) :
    let r := reportWord k l f
    r.getLsbD 15 = k.mailboxNotice ∧ r.getLsbD 14 = k.cartridgeChanged ∧ r.getLsbD 13 = k.peerDetached
      ∧ r.getLsbD 12 = k.peerAttached ∧ r.getLsbD 11 = k.mapChanged ∧ r.getLsbD 10 = k.peerTornWrite
      ∧ r.getLsbD 9 = k.preempted ∧ r.getLsbD 8 = k.attached := by
  obtain ⟨hword, hslot, hcode⟩ := reportWord_toNat k l f
  have hbit : ∀ (b : Bool) (i n : Nat), n / 2 ^ i % 2 = b.toNat → n.testBit i = b := fun b i n h => by
    rw [Nat.testBit_eq_decide_div_mod_eq, h]
    cases b <;> rfl
  have hle : ∀ b : Bool, b.toNat ≤ 1 := Bool.toNat_le
  have := hle k.mailboxNotice; have := hle k.cartridgeChanged; have := hle k.peerDetached
  have := hle k.peerAttached; have := hle k.mapChanged; have := hle k.peerTornWrite
  have := hle k.preempted; have := hle k.attached
  unfold Causes.bits at hword
  simp only [BitVec.getLsbD, hword]
  refine ⟨?_, ?_, ?_, ?_, ?_, ?_, ?_, ?_⟩ <;> exact hbit _ _ _ (by omega)

/-- Bits 7 to 3 of a REPORT word are the oldest slot, bits 2 to 0 the fault cause (R169). -/
theorem reportWord_low (k : Causes) (l : List (Fin 24)) (f : FaultCause) :
    ((reportWord k l f).extractLsb' 3 5).toNat = oldestSlot l
      ∧ ((reportWord k l f).extractLsb' 0 3).toNat = f.code := by
  obtain ⟨hword, hslot, hcode⟩ := reportWord_toNat k l f
  unfold Causes.bits at hword
  simp only [BitVec.extractLsb'_toNat, Nat.shiftRight_eq_div_pow, hword]
  constructor <;> omega

/-- Settles O18: the report's effect, and the word field by field. -/
theorem reportAnswersAndClearsCauses : Obligations.ReportAnswersAndClearsCauses := by
  intro c s h
  obtain ⟨h15, h14, h13, h12, h11, h10, h9, h8⟩ :=
    reportWord_causes (s.view c).causes (s.mbox.notice.get c) (s.view c).fault
  obtain ⟨hslot, hcode⟩ := reportWord_low (s.view c).causes (s.mbox.notice.get c) (s.view c).fault
  refine ⟨?effect, h15, h14, h13, h12, h11, h10, h9, h8, hslot.trans ?slot, hcode⟩
  case effect =>
    rw [exec_report h]
    cases c <;> rfl
  case slot => cases s.mbox.notice.get c <;> rfl

/-! ## Orders that do not translate -/

theorem cylinderEffect_translates {c : Chan} {s : State}
    (h : (s.view c).st ∈ [ViewState.standby, .requesting, .deferred, .positioned]) (n : Nat) (w : Carried) :
    cylinderEffect c n w s = translateOrder c n s := by
  unfold cylinderEffect
  simp only [List.mem_cons, List.not_mem_nil, or_false] at h
  rcases h with h | h | h | h <;> rw [h]

/-- When a translation finds the volume not usable (R22). -/
theorem translate_unusable {s : State} {v : Vol} (h : usableVol s v = false) (c : Chan) (n : Nat) :
    translate s c v n = .unusable := by simp [translate, h]

theorem translate_unmapped {s : State} {c : Chan} {v : Vol} {n : Nat} (h : Unmapped s c v n) :
    translate s c v n = .unmapped := by
  obtain ⟨hu, hn | hn⟩ := h
  · simp [translate, hu, hn]
  · simp [translate, hu, hn]

theorem translate_mapped {s : State} {c : Chan} {v : Vol} {n : Nat} {t : Target} (h : Maps s c v n t) :
    translate s c v n = .mapped t := by
  obtain ⟨hu, hn, e, he, hcls, hlog, hphys, hpermit⟩ := h
  have hfind : lookup (s.map.extents c) v n = some e := he
  simp only [translate, hu, Bool.not_true, Bool.false_eq_true, if_false, Nat.not_lt.2 hn, hfind, hcls]
  rw [← hphys, ← hpermit, ← hlog]

theorem lookup_none_iff (table : List Extent) (v : Vol) (n : Nat) :
    lookup table v n = none ↔ ∀ e ∈ table, ¬(e.inUse = true ∧ e.vol = v ∧ e.ls ≤ n ∧ n < e.ls + e.n) := by
  simp only [lookup, List.find?_eq_none, Bool.and_eq_true, decide_eq_true_eq, and_assoc]

theorem lookup_some {table : List Extent} {v : Vol} {n : Nat} {e : Extent} (h : lookup table v n = some e) :
    e ∈ table ∧ e.inUse = true ∧ e.vol = v ∧ e.ls ≤ n ∧ n < e.ls + e.n := by
  have htest := List.find?_some h
  simp only [Bool.and_eq_true, decide_eq_true_eq, and_assoc] at htest
  exact ⟨List.mem_of_find?_eq_some h, htest⟩

theorem mapSection_eq (img : Image) (c : Chan) :
    mapSection img c = (List.range 4).map fun j => extentAt img (sectionStart .f c + 4 * j) := by cases c <;> rfl

theorem labelSection_eq (img : Image) (c : Chan) :
    labelSection img c = (List.range 4).map fun j => extentAt img (sectionStart .r c + 4 * j) := by cases c <;> rfl

/-- The extents of a channel in effect: four of a VALID map, four of a VALID label (R47, R50). -/
theorem extents_eq (m : MapStore) (c : Chan) :
    m.extents c =
      (if m.mapState = .valid then
          (List.range 4).map fun j => extentAt m.activeMap (sectionStart .f c + 4 * j)
        else [])
        ++ if m.labelState = .valid then
          m.heldLabel.toList.flatMap fun l => (List.range 4).map fun j => extentAt l (sectionStart .r c + 4 * j)
        else [] := by
  unfold MapStore.extents
  rw [mapSection_eq]
  congr 1
  cases m.labelState <;> cases m.heldLabel <;> simp [labelSection_eq]

theorem raiseFor_onlyRaises {s t : State} (c : Chan) (e : ChanEvent) (p : PartAddr) (n : Nat) (h : t.ev = s.ev) :
    OnlyRaises [.chan c e] s (raiseFor c e p n t) :=
  onlyRaises_occurrence (r := ⟨(Flag.chan c e).number, some c, p, BitVec.ofNat 16 n, t.uptime⟩) (by rw [← h]; rfl)

theorem raiseFor_records {s t : State} {n m : Nat} (c : Chan) (e : ChanEvent) (p : PartAddr) (h : t.ev = s.ev)
    (hn : n = m) (hopen : Open (.chan c e) s) : Recorded (.chan c e) m (raiseFor c e p n t) := by
  subst hn
  exact recorded_raise _ _ _ _ t ⟨h ▸ hopen.1, h ▸ hopen.2⟩

/-- In STANDBY a failed translation sets the view alone (R22, R24). -/
theorem standbySeekError_standby {c : Chan} {s : State} (h : (s.view c).st = .standby) :
    standbySeekError c s = setView c (s.view c).seekFailed s := by
  have hv : { (s.view c).seekFailed with st := .standby } = (s.view c).seekFailed := by
    rw [← h]
    rfl
  simp only [standbySeekError, hv, h, leave]

/-- An unmapped CYLINDER order in STANDBY: E1, SEEK ERROR and no target (R22, R24, R45). -/
theorem exec_cylinderOrder_unmapped {c : Chan} {s : State} {value : BitVec 10} (h : TakesOrders s c)
    (hv : (s.view c).st = .standby) (hm : Unmapped s c (s.view c).sel.vol value.toNat) (w : Carried) :
    exec (.cylinderOrder c value w) s =
      .next (raiseUnmapped c value.toNat
        (orderDone c { s.view c with target := none, slotProt := false, seekError := true } s)) := by
  have hst : ((strobed c s).view c).st = .standby := by simpa using hv
  have htranslate : translate (strobed c s) c ((strobed c s).view c).sel.vol value.toNat = .unmapped := by
    rw [strobed_view]
    exact translate_unmapped (s := s) hm
  rw [exec_cylinderOrder h (by simp [hv]), cylinderEffect_translates (by rw [hst]; decide)]
  simp only [translateOrder, htranslate]
  rw [standbySeekError_standby (s := raiseUnmapped c value.toNat (strobed c s)) hst]
  cases c <;> rfl

/-- Settles O14: by the state of the view; the lookup by its search of the table. -/
theorem orderThatFailsToTranslate : Obligations.OrderThatFailsToTranslate := by
  intro c value w s h
  refine ⟨fun hv hu hn => ?unmapped, fun hv => ?notReady, fun v => lookup_none_iff _ v _, fun v e => lookup_some,
    extents_eq s.map c, fun k => ⟨rfl, rfl, rfl, rfl, rfl, rfl, rfl⟩⟩
  case unmapped =>
    have he := exec_cylinderOrder_unmapped h hv ⟨hu, hn⟩ w
    refine ⟨_, he, exec_recalibrate_eq h (by simp [hv]) he, rfl, ?_, fun hopen => ?_⟩
    · exact raiseFor_onlyRaises _ _ _ _ rfl
    · exact raiseFor_records _ _ _ rfl (by simp [detailE1, orderDone]) hopen
  case notReady =>
    have hst : ((strobed c s).view c).st = .notReady := by simpa using hv
    have he : ∀ x, exec (.cylinderOrder c x w) s =
        .next (orderDone c { s.view c with target := none, slotProt := false, seekError := true } s) := fun x => by
      rw [exec_cylinderOrder h (by simp [hv])]
      have heffect : cylinderEffect c x.toNat w (strobed c s) =
          setView c ((strobed c s).view c).seekFailed (strobed c s) := by simp only [cylinderEffect, hst]
      rw [heffect]
      cases c <;> rfl
    exact ⟨he value, (exec_recalibrate h (by simp [hv]) w).trans (he 0#10)⟩

/-! ## PRESENT -/

/-- Settles O31: the line of a DETACHED view, and the attach where it is due. -/
theorem presentLineAndAttach : Obligations.PresentLineAndAttach := by
  intro c w s
  refine ⟨fun hd => ?fall, rfl, fun hd hp hc => ?attach⟩
  case fall => simp [exec, execPresenceLost, hd, setView_setPort]
  case attach =>
    have hdue : attachDue s c = true := by simp [attachDue, hd, hp, hc]
    have he : exec (.attach c) s = .next (giveCause (peer c) .peerAttached
        (unsetExpected c (setView c (attachedView s c) s))) := by simp [exec, execAttach, hdue]
    have hpeer : (unsetExpected c (setView c (attachedView s c) s)).view (peer c) = s.view (peer c) := by
      cases c <;> rfl
    have hview : attachedView s c =
        { st := if s.watch.st = .running ∧ s.map.mapState = .valid then .standby else .notReady,
          sel := ⟨.f, .h0⟩, target := none, seekError := false, slotProt := false, fault := .none,
          causes := { Causes.empty with
            attached := true, mailboxNotice := !(s.mbox.notice.get c).isEmpty },
          wait := 0, idle := 0, debounce := 50 } := by
      simp [attachedView, View.initial, usable_iff, hc]
    refine ⟨_, he, ?_, ?_, ?_, ?_⟩
    all_goals unfold giveCause; rw [hpeer]
    · rw [← hview]; split <;> cases c <;> rfl
    · split
      · exact hpeer
      · cases c <;> rfl
    · split <;> rfl
    · have hset : TouchesOnly [.view .a, .view .b, .mbox] s (unsetExpected c (setView c (attachedView s c) s)) :=
        fun p hp => by
          cases p with
          | view d => cases d <;> simp at hp
          | mbox => simp at hp
          | _ => rfl
      split
      · exact hset
      · exact hset.trans ((touches_view _ _ _).mono (by cases c <;> decide))

end Sys2Proof.Machine
end

section
/-! A gate that arrives at a channel port: passed, held, or without position (R31 to R34). -/

namespace Sys2Proof.Machine

/-! ## Gates that arrive -/

/-- The port once a gate has begun at it with this line (R31). -/
def Port.begun (p : Port) (line : GateLine) : Port :=
  { p with readGate := decide (line = .read), writeGate := decide (line = .write), gate := some line }

/-- The part in which a gate that has arrived is judged: the gate begun at its port, the idle count 0 (R31, R44). -/
def risen (c : Chan) (line : GateLine) (s : State) : State :=
  setPort c ((s.port c).begun line) (setView c { s.view c with idle := 0 } s)

@[simp] theorem risen_view (c : Chan) (line : GateLine) (s : State) :
    (risen c line s).view c = { s.view c with idle := 0 } := by simp [risen]

theorem setLine_low {p : Port} (hr : p.readGate = false) (hw : p.writeGate = false) (line : GateLine) :
    { p.setLine line true with gate := some line } = p.begun line := by
  cases line <;> simp [Port.setLine, Port.begun, hr, hw]

/-- A rise with both lines low is an arrival (R31). -/
theorem exec_gateArrival_low {c : Chan} {s : State} (hr : (s.port c).readGate = false)
    (hw : (s.port c).writeGate = false) (line : GateLine) (us : Nat) :
    exec (.gateArrival c line us) s =
      .next (gateEffect c line us (idleToZero c (setPort c ((s.port c).begun line) s))) := by
  simp only [exec, execGateArrival, hr, hw, Bool.or_self, Bool.false_eq_true, if_false, setPort_setPort,
    setLine_low hr hw]

theorem exec_gateArrival_risen {c : Chan} {s : State} (hr : (s.port c).readGate = false)
    (hw : (s.port c).writeGate = false) (hd : (s.view c).st ≠ .detached) (line : GateLine) (us : Nat) :
    exec (.gateArrival c line us) s = .next (gateEffect c line us (risen c line s)) := by
  have hidle : idleToZero c (setPort c ((s.port c).begun line) s) = risen c line s := by
    simp [idleToZero, hd, risen, setView_setPort]
  rw [exec_gateArrival_low hr hw, hidle]

/-- A rise beside a line that is up changes its line alone (R31). -/
theorem exec_gateArrival_high {c : Chan} {s : State}
    (h : ¬((s.port c).readGate = false ∧ (s.port c).writeGate = false)) (line : GateLine) (us : Nat) :
    exec (.gateArrival c line us) s =
      .next (setPort c
        { s.port c with
          readGate := (s.port c).readGate || decide (line = .read),
          writeGate := (s.port c).writeGate || decide (line = .write) } s) := by
  have hup : ((s.port c).readGate || (s.port c).writeGate) = true := by
    cases hr : (s.port c).readGate <;> cases hw : (s.port c).writeGate <;> simp_all
  simp only [exec, execGateArrival, hup, if_true]
  cases line <;> simp [Port.setLine]

theorem gateEffect_positioned {c : Chan} {s : State} (h : (s.view c).st = .positioned) (line : GateLine) (us : Nat) :
    gateEffect c line us s = handGate c line us s := by simp [gateEffect, h]

/-! ## Gates at a POSITIONED view -/

/-- The kind of a gate by its line and its distance from the sector start (R105; log 5). -/
theorem classify_eq (line : GateLine) (us : Nat) :
    classify line (inHeaderWindow us) =
      if line = .read then .read else if us < 120 then .formatWrite else .dataWrite := by
  cases line
  · rfl
  · by_cases h : us < 120 <;> simp [classify, inHeaderWindow, h]

/-- When no check suppresses a write (R107). -/
theorem writeCheck_none {s : State} {v : View} {t : Target} {us : Nat} (hcls : t.cls ≠ .readOnly)
    (hprot : s.drive.prot v.sel.vol = false) (h1 : ¬(t.cls = .mailbox ∧ v.sel.head = .h1))
    (h0 : ¬(t.cls = .mailbox ∧ v.sel.head = .h0 ∧ posted s s.watch.sector = true))
    (hpermit : ¬(us < 120 ∧ (t.cls = .readWrite ∨ t.cls = .shared) ∧ t.permit = false)) :
    writeCheck s v t (classify .write (inHeaderWindow us)) = none := by
  have hkind : classify .write (inHeaderWindow us) = .formatWrite ↔ us < 120 := by
    rw [classify_eq]
    by_cases h : us < 120 <;> simp [h]
  simp only [writeCheck, hcls, hprot, h1, h0, hkind, hpermit, Bool.false_eq_true, if_false]

/-- A gate that is neither held nor suppressed is passed (R32, R106, R108). -/
theorem handGate_passes {c : Chan} {line : GateLine} {us : Nat} {s : State} {t : Target}
    (hheld : gateHeld s c = false) (ht : (s.view c).target = some t)
    (hcheck : line = .write → writeCheck s (s.view c) t (classify .write (inHeaderWindow us)) = none) :
    handGate c line us s = passGate c t (classify line (inHeaderWindow us)) (inHeaderWindow us) s := by
  cases line with
  | read => simp [handGate, hheld, ht, classify]
  | write =>
    have hwrite : classify .write (inHeaderWindow us) ≠ .read := by
      rw [classify_eq]
      by_cases h : us < 120 <;> simp [h]
    simp [handGate, hheld, ht, hwrite, hcheck rfl]

/-- Settles O20: by whether the gate is held. -/
theorem gateAtPositionedView : Obligations.GateAtPositionedView := by
  intro c line us s t hr hw hv ht
  have he := exec_gateArrival_risen hr hw (by simp [hv]) line us
  rw [gateEffect_positioned (by simp [hv])] at he
  have hheld : gateHeld (risen c line s) c = true ↔
      s.watch.st = .supplyHold ∨ s.relay.headPending.isSome = true ∨ HeadAwaited s c := gateHeld_iff (risen c line s) c
  refine ⟨fun hhold hpend hhead hcheck => ?passed, fun h => ?held⟩
  case held => rw [he, handGate_held line us (hheld.2 h)]; rfl
  case passed =>
    have hfree : gateHeld (risen c line s) c = false := by
      rw [Bool.eq_false_iff, ne_eq, hheld]
      simp [hhold, hpend, hhead]
    have htarget : ((risen c line s).view c).target = some t := by simpa using ht
    have hnone : line = .write →
        writeCheck (risen c line s) ((risen c line s).view c) t (classify .write (inHeaderWindow us)) = none := by
      intro hl
      obtain ⟨hcls, hprot, h1, h0, hpermit⟩ := hcheck hl
      rw [risen_view]
      exact writeCheck_none (s := risen c line s) hcls hprot h1 h0 hpermit
    rw [he, handGate_passes hfree htarget hnone, classify_eq]
    cases line with
    | read => cases c <;> rfl
    | write =>
      simp only [reduceCtorEq, if_false]
      split <;> cases c <;> rfl

end Sys2Proof.Machine
end

section
/-! What a grant decision, an arriving request and the end of a grant do to the arbiter and the views (R65 to R82): the
frame of each operation, and the arbiter after it. -/

namespace Sys2Proof.Machine

/-! ## Frames of one block -/

theorem touches_arb (s : State) (a : Arbiter) : TouchesOnly [.arb] s { s with arb := a } :=
  fun p hp => by
    cases p with
    | arb => simp at hp
    | _ => rfl

theorem touches_pos (s : State) (x : Positioner) : TouchesOnly [.pos] s { s with pos := x } :=
  fun p hp => by
    cases p with
    | pos => simp at hp
    | _ => rfl

theorem touches_drive (s : State) (d : DrivePort) : TouchesOnly [.drive] s { s with drive := d } :=
  fun p hp => by
    cases p with
    | drive => simp at hp
    | _ => rfl

theorem touches_relay (s : State) (r : Relay) : TouchesOnly [.relay] s { s with relay := r } :=
  fun p hp => by
    cases p with
    | relay => simp at hp
    | _ => rfl

theorem touches_ilock (s : State) (i : Interlock) : TouchesOnly [.ilock] s { s with ilock := i } :=
  fun p hp => by
    cases p with
    | ilock => simp at hp
    | _ => rfl

theorem touches_map (s : State) (m : MapStore) : TouchesOnly [.map] s { s with map := m } :=
  fun p hp => by
    cases p with
    | map => simp at hp
    | _ => rfl

theorem touches_ev (s : State) (e : EventUnit) : TouchesOnly [.ev] s { s with ev := e } :=
  fun p hp => by
    cases p with
    | ev => simp at hp
    | _ => rfl

theorem touches_mbox (s : State) (m : Mailbox) : TouchesOnly [.mbox] s { s with mbox := m } :=
  fun p hp => by
    cases p with
    | mbox => simp at hp
    | _ => rfl

theorem touches_watch (s : State) (x : Watch) : TouchesOnly [.watch] s { s with watch := x } :=
  fun p hp => by
    cases p with
    | watch => simp at hp
    | _ => rfl

/-! ## Seeks and the relay's head selection -/

theorem askSeek_touches (n : Nat) (s : State) : TouchesOnly [.pos, .drive] s (askSeek n s) := by
  have horder : ∀ (o : DriveOrder) (x : Positioner), TouchesOnly [.pos, .drive] s (requestOrder o { s with pos := x }) :=
    fun o x => ((touches_pos s x).mono (by decide)).trans ((requestOrder_touches o _).mono (by decide))
  have hpos : ∀ x : Positioner, TouchesOnly [.pos, .drive] s { s with pos := x } :=
    fun x => (touches_pos s x).mono (by decide)
  unfold askSeek
  split
  · unfold beginSeek clearThenRecalibrate
    split
    · split <;> exact horder _ _
    · exact horder _ _
  · split
    · exact hpos _
    · exact .refl _ s
  · split
    · exact hpos _
    · exact .refl _ s
  · exact .refl _ s
  · exact .refl _ s

theorem seekFor_touches (n : Nat) (s : State) : TouchesOnly [.arb, .pos, .drive] s (seekFor n s) :=
  ((touches_arb s _).mono (by decide)).trans ((askSeek_touches n _).mono (by decide))

/-- The cylinder a seek is asked for is the one awaited (R71). -/
theorem seekFor_arb (n : Nat) (s : State) : (seekFor n s).arb = { s.arb with awaited := some n } :=
  askSeek_touches n _ .arb (by decide)

/-- A seek requested of Positioner Control (R91). -/
def sought (n : Nat) (s : State) : State := { s with pos := { s.pos with request := some (.seek n), retry := false } }

/-- A seek asked for in IDLE, with the position known and the drive untroubled, begins (R91, R92). -/
theorem askSeek_begins {n : Nat} {s : State} (hs : s.pos.st = .idle) (hc : s.pos.cyl ≠ none)
    (ht : driveTroubled s = false) :
    (askSeek n s).pos.st = .seeking ∧ OrderAsked (.cylinder n) (askSeek n s) := by
  have hbegin : askSeek n s = attemptSeek n (sought n s) := by
    have hready : ¬(((sought n s).pos.cyl.isNone || driveTroubled (sought n s)) = true) := by
      have hknown : (sought n s).pos.cyl.isNone = false := by
        rw [Option.isNone_eq_false_iff, Option.isSome_iff_ne_none]
        exact hc
      have htrouble : driveTroubled (sought n s) = false := ht
      rw [hknown, htrouble]
      decide
    have hnow : askSeek n s = beginSeek n (sought n s) := by
      unfold askSeek
      split <;> simp_all [sought]
    rw [hnow]
    exact if_neg hready
  rw [hbegin]
  exact ⟨congrArg (·.st) (requestOrder_same _ _).2.1, requestOrder_asked _ _⟩

theorem askHead_touches (c : Chan) (s : State) : TouchesOnly [.relay, .drive] s (askHead c s) := by
  have hpending := (touches_relay s { s.relay with headPending := some (s.view c).sel }).mono
    (m := [.relay, .drive]) (by decide)
  unfold askHead
  simp only
  split
  · exact hpending.trans ((touches_drive _ _).mono (by decide))
  · split
    · exact hpending
    · exact hpending.trans ((requestOrder_touches _ _).mono (by decide))

/-- A HEAD order asked for stands at the drive port, and its selection is pending (R104). -/
theorem askHead_asked (c : Chan) (s : State) :
    (askHead c s).relay = { s.relay with headPending := some (s.view c).sel }
      ∧ OrderAsked (.head (s.view c).sel (.relay c)) (askHead c s) := by
  unfold askHead
  simp only
  split
  · rename_i hwaits
    obtain ⟨o, ho, hby⟩ := List.any_eq_true.1 hwaits
    exact ⟨rfl, .inr (List.mem_map.2 ⟨o, ho, if_pos hby⟩)⟩
  · split
    · rename_i hoffered
      exact ⟨rfl, .inl hoffered⟩
    · exact ⟨(requestOrder_same _ _).2.2.2.2.2.1, requestOrder_asked _ _⟩

theorem headAtGrantStart_touches (c : Chan) (s : State) : TouchesOnly [.relay, .drive] s (headAtGrantStart c s) := by
  unfold headAtGrantStart
  split
  · exact (touches_relay s _).mono (by decide)
  · exact askHead_touches c s

theorem headAtOrder_touches (c : Chan) (s : State) : TouchesOnly [.relay, .drive] s (headAtOrder c s) := by
  unfold headAtOrder
  split
  · split
    · exact .refl _ s
    · exact askHead_touches c s
  · split
    · exact .refl _ s
    · exact askHead_touches c s

theorem headAtGrantEnd_touches (c : Chan) (s : State) : TouchesOnly [.relay, .drive] s (headAtGrantEnd c s) :=
  ((touches_relay s _).mono (by decide)).trans ((touches_drive _ _).mono (by decide))

/-! ## A grant begins -/

theorem enterOwned_touches (c : Chan) (s : State) :
    TouchesOnly [.view c, .arb, .relay, .drive] s (enterOwned c s) :=
  ((touches_arb s _).mono (by cases c <;> decide)).trans
    (((touches_view c _ _).mono (by cases c <;> decide)).trans ((headAtGrantStart_touches c _).mono (by cases c <;> decide)))

theorem enterOwned_arb (c : Chan) (s : State) :
    (enterOwned c s).arb =
      { s.arb with st := .owned c, request := s.arb.request.set c none, awaited := none } :=
  headAtGrantStart_touches c _ .arb (by decide)

theorem enterOwned_view (c : Chan) (s : State) :
    (enterOwned c s).view c = { s.view c with st := .positioned, idle := 0 } := by
  have h := headAtGrantStart_touches c (setView c { s.view c with st := .positioned, idle := 0 }
    { s with arb := { s.arb with st := .owned c, request := s.arb.request.set c none, awaited := none } })
    (.view c) (by simp)
  exact Eq.trans h (by simp)

theorem grantTo_none {c : Chan} {s : State} (h : s.arb.request.get c = none) : grantTo c s = s := by
  simp [grantTo, h]

/-- A grant to a channel whose cylinder the actuator stands on (R71 step 4). -/
theorem grantTo_there {c : Chan} {s : State} {p : Place} (h : s.arb.request.get c = some p)
    (hc : s.pos.cyl = some p.cyl) : grantTo c s = enterOwned c (grantBegun c s) := by
  simp [grantTo, h, hc]

/-- A grant to a channel whose cylinder is elsewhere: a claim, and its seek (R71 step 4). -/
theorem grantTo_elsewhere {c : Chan} {s : State} {p : Place} (h : s.arb.request.get c = some p)
    (hc : s.pos.cyl ≠ some p.cyl) :
    grantTo c s =
      seekFor p.cyl { grantBegun c s with arb := { (grantBegun c s).arb with st := .claimed c .fresh } } := by
  simp only [grantTo, h, hc, if_false]

theorem grantBegun_touches (c : Chan) (s : State) : TouchesOnly [.arb] s (grantBegun c s) := touches_arb s _

theorem grantTo_touches (c : Chan) (s : State) :
    TouchesOnly [.view c, .arb, .pos, .drive, .relay] s (grantTo c s) := by
  cases h : s.arb.request.get c with
  | none => rw [grantTo_none h]; exact .refl _ s
  | some p =>
    have hbegun := (grantBegun_touches c s).mono (m := [.view c, .arb, .pos, .drive, .relay]) (by cases c <;> decide)
    by_cases hc : s.pos.cyl = some p.cyl
    · rw [grantTo_there h hc]
      exact hbegun.trans ((enterOwned_touches c _).mono (by cases c <;> decide))
    · rw [grantTo_elsewhere h hc]
      exact hbegun.trans (((touches_arb _ _).mono (by cases c <;> decide)).trans
        ((seekFor_touches _ _).mono (by cases c <;> decide)))

/-- The arbiter after a grant (R71). -/
theorem grantTo_arb {c : Chan} {s : State} {p : Place} (h : s.arb.request.get c = some p) :
    (grantTo c s).arb =
      { (grantBegun c s).arb with
        st := if s.pos.cyl = some p.cyl then .owned c else .claimed c .fresh,
        request := if s.pos.cyl = some p.cyl then s.arb.request.set c none else s.arb.request,
        awaited := if s.pos.cyl = some p.cyl then none else some p.cyl } := by
  by_cases hc : s.pos.cyl = some p.cyl
  · simp only [grantTo_there h hc, enterOwned_arb, hc, if_true]
    rfl
  · simp only [grantTo_elsewhere h hc, seekFor_arb, hc, if_false]
    rfl

/-- The view after a grant: POSITIONED where the actuator stands on its cylinder (R35, R71). -/
theorem grantTo_view {c : Chan} {s : State} {p : Place} (h : s.arb.request.get c = some p) :
    (grantTo c s).view c =
      if s.pos.cyl = some p.cyl then { s.view c with st := .positioned, idle := 0 } else s.view c := by
  by_cases hc : s.pos.cyl = some p.cyl
  · rw [grantTo_there h hc, enterOwned_view, if_pos hc]
    rfl
  · rw [grantTo_elsewhere h hc, if_neg hc]
    exact seekFor_touches _ _ (.view c) (by simp)

theorem paramsFor_valid {s : State} (h : s.map.mapState = .valid) (c : Chan) :
    paramsFor s c = paramsOf s.map.activeMap c := by simp [paramsFor, MapStore.params, h]

/-- A grant decided on a VALID map is a fresh one (R71). -/
theorem grantTo_begun {c : Chan} {s : State} {p : Place} (h : s.arb.request.get c = some p)
    (hv : s.map.mapState = .valid) : GrantBegun c p s (grantTo c s) := by
  have hview := grantTo_view h
  unfold GrantBegun
  rw [grantTo_arb h]
  refine ⟨rfl, rfl, rfl, rfl, rfl, congrArg Params.t (paramsFor_valid hv c), fun hc => ⟨if_pos hc, ?_⟩,
    fun hc => ⟨if_neg hc, if_neg hc⟩⟩
  rw [hview, if_pos hc]

/-! ## A decision -/

theorem grantInternal_eq (s : State) :
    (grantInternal s).arb = { s.arb with
        st := .internal, awaited := if s.pos.cyl = some 0 then s.arb.awaited else some 0 }
      ∧ TouchesOnly [.map, .arb, .pos, .drive] s (grantInternal s) := by
  have harb := (touches_arb s { s.arb with st := .internal }).mono (m := [.map, .arb, .pos, .drive]) (by decide)
  unfold grantInternal
  simp only
  split
  · have hbegin : TouchesOnly [.map, .drive] { s with arb := { s.arb with st := .internal } }
        (beginTransfer { s with arb := { s.arb with st := .internal } }) := by
      unfold beginTransfer beginSector
      split
      · exact .refl _ _
      · split
        · exact (touches_map _ _).mono (by decide)
        · exact TouchesOnly.trans ((touches_map _ _).mono (by decide)) ((requestOrder_touches _ _).mono (by decide))
    exact ⟨hbegin .arb (by decide), harb.trans (hbegin.mono (by decide))⟩
  · exact ⟨seekFor_arb _ _, harb.trans ((seekFor_touches _ _).mono (by decide))⟩

/-- What a decision can do: nothing, an internal grant, a grant to a channel whose record is there, and one under the wait
limit where both records are (R68 to R70). -/
theorem decideGrant_cases (s : State) :
    decideGrant s = s
      ∨ (s.arb.queue ≠ [] ∧ decideGrant s = grantInternal s)
      ∨ (∃ z, s.arb.request.get z ≠ none ∧ decideGrant s = grantTo z s)
      ∨ ∃ z, (∀ d, s.arb.request.get d ≠ none) ∧ decideGrant s = grantByLimit z s := by
  unfold decideGrant
  split
  · split
    · rename_i hq
      exact .inr (.inl ⟨by simpa using hq, rfl⟩)
    · split
      · exact .inl rfl
      · rename_i ha hb
        exact .inr (.inr (.inl ⟨.a, by simp [Pair.get, ha], rfl⟩))
      · rename_i ha hb
        exact .inr (.inr (.inl ⟨.b, by simp [Pair.get, hb], rfl⟩))
      · rename_i ha hb
        have hboth : ∀ d, s.arb.request.get d ≠ none := fun d => by cases d <;> simp [Pair.get, ha, hb]
        split
        · exact .inr (.inr (.inr ⟨_, hboth, rfl⟩))
        · exact .inr (.inr (.inl ⟨_, hboth _, rfl⟩))
  · exact .inl rfl

/-- What a decision may reach. -/
def Part.decided : List Part := [.view .a, .view .b, .map, .arb, .pos, .drive, .relay, .ev]

theorem decideGrant_touches (s : State) : TouchesOnly Part.decided s (decideGrant s) := by
  have hgrant : ∀ z t, TouchesOnly Part.decided t (grantTo z t) :=
    fun z t => (grantTo_touches z t).mono (by cases z <;> decide)
  rcases decideGrant_cases s with h | ⟨-, h⟩ | ⟨z, -, h⟩ | ⟨z, -, h⟩ <;> rw [h]
  · exact .refl _ s
  · exact (grantInternal_eq s).2.mono (by decide)
  · exact hgrant z s
  · exact ((touches_ev s _).mono (by decide)).trans (hgrant z _)

theorem grantTo_usage (z : Chan) (s : State) : (grantTo z s).arb.usage = s.arb.usage := by
  cases h : s.arb.request.get z with
  | none => rw [grantTo_none h]
  | some p => rw [grantTo_arb h]; rfl

/-- A decision charges nobody (R68). -/
theorem decideGrant_usage (s : State) : (decideGrant s).arb.usage = s.arb.usage := by
  rcases decideGrant_cases s with h | ⟨-, h⟩ | ⟨z, -, h⟩ | ⟨z, -, h⟩ <;> rw [h]
  · rw [(grantInternal_eq s).1]
  · exact grantTo_usage z s
  · exact grantTo_usage z _

theorem decideGrant_nobody {s : State} (hq : s.arb.queue = []) (h : ∀ d, s.arb.request.get d = none) :
    decideGrant s = s := by
  have ha := h .a
  have hb := h .b
  simp only [Pair.get] at ha hb
  simp [decideGrant, hq, ha, hb]

/-- A decision with one channel alone among the requesters is a grant to it (R68). -/
theorem decideGrant_alone {c : Chan} {s : State} (hf : s.arb.st = .free) (hq : s.arb.queue = [])
    (hp : s.arb.request.get (peer c) = none) : decideGrant s = grantTo c s := by
  cases h : s.arb.request.get c with
  | none =>
    have hnone : ∀ d, s.arb.request.get d = none := fun d => by
      by_cases hd : d = c
      · rw [hd, h]
      · rw [eq_peer_of_ne hd, hp]
    rw [decideGrant_nobody hq hnone, grantTo_none h]
  | some p => cases c <;> simp only [peer, Pair.get] at h hp <;> simp [decideGrant, hf, hq, h, hp]

/-- The arbiter FREE with the values of a grant end, before the decision (R80 step 3). -/
def freed (s : State) : State :=
  { s with arb := { s.arb with st := .free, awaited := none, stamp := none, clock := 0, releasePending := false } }

theorem toFree_eq (s : State) : toFree s = decideGrant (freed s) := rfl

/-! ## A request arrives -/

/-- The part with a channel's record set or removed (R65). -/
def withRequest (c : Chan) (p : Option Place) (s : State) : State :=
  { s with arb := { s.arb with request := s.arb.request.set c p } }

theorem not_otherWaits_iff (s : State) (x : Chan) :
    otherWaits s x = false ↔ s.arb.request.get (peer x) = none ∧ s.arb.queue = [] := by
  rw [Bool.eq_false_iff, ne_eq, otherWaits_iff]
  simp [Waits]

/-- A request at an owned arbiter: a re-seek of the owner, or the release comparison where waiting begins (R65, R76,
R77). -/
theorem requestArrives_owned {c x : Chan} {s : State} (h : s.arb.st = .owned x) (p : Place) :
    requestArrives c p s =
      if x = c then reseek c p (withRequest c (some p) s)
      else if otherWaits s x then withRequest c (some p) s
      else judgeRelease (withRequest c (some p) s) := by
  rcases s with ⟨_, _, _, ⟨st⟩⟩
  obtain rfl : st = .owned x := h
  rfl

theorem requestArrives_claim {c x : Chan} {k : ClaimKind} {s : State} (h : s.arb.st = .claimed x k) (p : Place) :
    requestArrives c p s =
      if x = c then retargetHeld p (withRequest c (some p) s) else withRequest c (some p) s := by
  rcases s with ⟨_, _, _, ⟨st⟩⟩
  obtain rfl : st = .claimed x k := h
  rfl

/-- The release comparison at an owned arbiter (R77). -/
theorem judgeRelease_owned {x : Chan} {s : State} (h : s.arb.st = .owned x) :
    judgeRelease s = if releaseDue s then grantEnd x .release s else s := by
  simp only [judgeRelease, releaseDue, h]
  cases s.map.params x <;> simp

/-- A request that the arbiter leaves waiting is a record alone (R65). -/
theorem requestArrives_keeps {c : Chan} {s : State} (h : KeepsWaiting s c) (p : Place) :
    requestArrives c p s = withRequest c (some p) s := by
  rcases h with h | h | ⟨k, h⟩ | ⟨h, hw⟩
  · rcases s with ⟨_, _, _, ⟨st⟩⟩
    obtain rfl : st = .internal := h
    rfl
  · rcases s with ⟨_, _, _, ⟨st⟩⟩
    obtain rfl : st = .halted := h
    rfl
  · rw [requestArrives_claim h, if_neg (peer_ne c)]
  · rw [requestArrives_owned h, if_neg (peer_ne c)]
    rcases hw with hw | hw
    · exact if_pos ((otherWaits_iff s _).2 hw)
    · have hkeeps : ¬releaseDue (withRequest c (some p) s) = true := by
        rw [releaseDue_iff]
        rintro ⟨-, x, hx, -, hidle⟩
        obtain rfl : peer c = x := ArbState.owned.inj (h.symm.trans hx)
        exact absurd hidle (Nat.not_le.2 hw)
      rw [judgeRelease_owned (s := withRequest c (some p) s) h, if_neg hkeeps, ite_self]

/-- A request of the claimant whose seek is under way replaces its record (R72). -/
theorem requestArrives_claimed {c : Chan} {k : ClaimKind} {s : State} (h : s.arb.st = .claimed c k)
    (hh : s.pos.held = none) (p : Place) : requestArrives c p s = withRequest c (some p) s := by
  have hheld : ¬(withRequest c (some p) s).pos.held.isSome = true := by simp [withRequest, hh]
  rw [requestArrives_claim h, if_pos rfl, retargetHeld, if_neg hheld]

/-- A request of the claimant whose seek is held replaces the held seek (R91; log 15). -/
theorem requestArrives_retargets {c : Chan} {k : ClaimKind} {n : Nat} {s : State} (h : s.arb.st = .claimed c k)
    (hh : s.pos.held = some n) (p : Place) :
    requestArrives c p s =
      { s with
        pos := { s.pos with held := some p.cyl },
        arb := { s.arb with request := s.arb.request.set c (some p), awaited := some p.cyl } } := by
  have hheld : (withRequest c (some p) s).pos.held.isSome = true := by simp [withRequest, hh]
  rw [requestArrives_claim h, if_pos rfl, retargetHeld, if_pos hheld]
  rfl

/-- The first request at a FREE arbiter is granted (R68). -/
theorem requestArrives_free {c : Chan} {s : State} (h : s.arb.st = .free) (hq : s.arb.queue = [])
    (hp : s.arb.request.get (peer c) = none) (p : Place) :
    requestArrives c p s = grantTo c (withRequest c (some p) s) := by
  have hdecide : requestArrives c p s = decideGrant (withRequest c (some p) s) := by
    rcases s with ⟨_, _, _, ⟨st⟩⟩
    obtain rfl : st = .free := h
    rfl
  rw [hdecide]
  exact decideGrant_alone (s := withRequest c (some p) s) h hq (by simpa [withRequest] using hp)

/-- The part once the grant of x has ended by release, before the decision (R77, R80). -/
def released (x : Chan) (s : State) : State := freed (headAtGrantEnd x (viewGrantEnd x (charge x s)))

theorem grantEnd_release (x : Chan) (s : State) : grantEnd x .release s = decideGrant (released x s) := by
  simp [grantEnd, toFree_eq, released]

theorem viewGrantEnd_view (x : Chan) (s : State) :
    (viewGrantEnd x s).view x = { s.view x with st := if (s.view x).st = .positioned then .standby else (s.view x).st } := by
  unfold viewGrantEnd
  split
  · simp
  · rfl

theorem viewGrantEnd_touches (x : Chan) (s : State) : TouchesOnly [.view x] s (viewGrantEnd x s) := by
  unfold viewGrantEnd
  split
  · exact touches_view x _ s
  · exact .refl _ s

theorem freed_touches (s : State) : TouchesOnly [.arb] s (freed s) := touches_arb s _

theorem released_touches (x : Chan) (s : State) :
    TouchesOnly [.view x, .arb, .relay, .drive] s (released x s) :=
  (((touches_arb s _).mono (by cases x <;> decide)).trans
    ((viewGrantEnd_touches x (charge x s)).mono (by cases x <;> decide))).trans
    (((headAtGrantEnd_touches x _).mono (by cases x <;> decide)).trans ((freed_touches _).mono (by cases x <;> decide)))

theorem released_arb (x : Chan) (s : State) :
    (released x s).arb = { s.arb with
      st := .free, usage := chargedUsage s.arb.usage x s.arb.held, awaited := none, stamp := none, clock := 0,
      releasePending := false } := by
  have hend : (headAtGrantEnd x (viewGrantEnd x (charge x s))).arb = (charge x s).arb :=
    (headAtGrantEnd_touches x _ .arb (by decide)).trans (viewGrantEnd_touches x _ .arb (by simp))
  simp only [released, freed, hend]
  rfl

theorem released_view (x : Chan) (s : State) :
    (released x s).view x = { s.view x with st := if (s.view x).st = .positioned then .standby else (s.view x).st } :=
  viewGrantEnd_view x (charge x s)

/-- The first waiter at an owner idle for its release interval ends the grant, and is granted (R65, R77). -/
theorem requestArrives_ends {c : Chan} {s : State} (h : EndsGrantAtArrival s c) (p : Place) :
    requestArrives c p s = grantTo c (released (peer c) (withRequest c (some p) s)) := by
  obtain ⟨hown, -, hw, hr, hm, hidle⟩ := h
  have hnone : otherWaits s (peer c) = false := Bool.eq_false_iff.2 (mt (otherWaits_iff s _).1 hw)
  obtain ⟨-, hq⟩ := (not_otherWaits_iff s _).1 hnone
  have hdue : releaseDue (withRequest c (some p) s) = true :=
    (releaseDue_iff _).2 ⟨hm, peer c, hown, .inl (by simp [withRequest]), hidle⟩
  have harb := released_arb (peer c) (withRequest c (some p) s)
  rw [requestArrives_owned hown, if_neg (peer_ne c), if_neg (by simp [hnone]),
    judgeRelease_owned (s := withRequest c (some p) s) hown, if_pos hdue, grantEnd_release]
  refine decideGrant_alone ?_ ?_ ?_ <;> rw [harb]
  · exact hq
  · simpa [withRequest] using hr

/-- The grant of the peer has passed to the channel whose request ended it (R36, R71, R80). -/
theorem requestArrives_ends_passed {c : Chan} {s : State} (h : EndsGrantAtArrival s c) (p : Place) :
    GrantPassed (peer c) p s (requestArrives c p s)
      ∧ TouchesOnly [.view .a, .view .b, .arb, .pos, .drive, .relay] s (requestArrives c p s) := by
  have hends := requestArrives_ends h p
  obtain ⟨-, hpos, -, -, hm, -⟩ := h
  have htouch := released_touches (peer c) (withRequest c (some p) s)
  have hgrant := grantTo_touches c (released (peer c) (withRequest c (some p) s))
  have hrequest : (released (peer c) (withRequest c (some p) s)).arb.request.get c = some p := by
    rw [released_arb]
    simp [withRequest]
  have hmap : (released (peer c) (withRequest c (some p) s)).map = s.map := htouch .map (by simp)
  have hcyl : (released (peer c) (withRequest c (some p) s)).pos = s.pos := htouch .pos (by simp)
  have huptime : (released (peer c) (withRequest c (some p) s)).uptime = s.uptime := htouch .uptime (by simp)
  have hview : (grantTo c (released (peer c) (withRequest c (some p) s))).view (peer c) =
      { s.view (peer c) with st := .standby } := by
    have hst : ((withRequest c (some p) s).view (peer c)).st = .positioned := hpos
    rw [show (grantTo c _).view (peer c) = _ from hgrant (.view (peer c)) (by simp), released_view, if_pos hst]
    rfl
  have hbegun := grantTo_begun hrequest (by rw [hmap]; exact hm)
  rw [hends]
  refine ⟨⟨by rw [hview], by rw [hview], ?usage, ?begun⟩, ?frame⟩
  case usage => rw [grantTo_usage, released_arb]; rfl
  case begun =>
    rw [peer_peer]
    unfold GrantBegun at hbegun ⊢
    rw [hmap, hcyl, huptime] at hbegun
    exact hbegun
  case frame =>
    exact ((touches_arb s _).mono (by decide)).trans
      ((htouch.mono (by cases c <;> decide)).trans (hgrant.mono (by cases c <;> decide)))

/-! ## A re-seek of the owner -/

/-- A re-seek while nobody else waits continues the grant as a claim (R76). -/
theorem requestArrives_reseek {c : Chan} {s : State} (h : s.arb.st = .owned c) (hq : s.arb.queue = [])
    (hp : s.arb.request.get (peer c) = none) (p : Place) :
    (requestArrives c p s).arb = { s.arb with
        st := .claimed c .continuing, awaited := some p.cyl, request := s.arb.request.set c (some p) }
      ∧ TouchesOnly [.arb, .pos, .drive] s (requestArrives c p s) := by
  have hnone : otherWaits (withRequest c (some p) s) c = false :=
    (not_otherWaits_iff _ _).2 ⟨by simpa [withRequest] using hp, hq⟩
  rw [requestArrives_owned h, if_pos rfl, reseek, if_neg (by simp [hnone])]
  exact ⟨seekFor_arb _ _, ((touches_arb s _).mono (by decide)).trans (seekFor_touches _ _)⟩

/-- The part once the grant of c has ended by its re-seek to a place, before the decision (R76, R80). -/
def reseeked (c : Chan) (p : Place) (s : State) : State :=
  freed (headAtGrantEnd c (charge c (withRequest c (some p) s)))

theorem reseeked_touches (c : Chan) (p : Place) (s : State) :
    TouchesOnly [.arb, .relay, .drive] s (reseeked c p s) :=
  ((touches_arb s _).mono (by decide)).trans
    (((headAtGrantEnd_touches c (charge c (withRequest c (some p) s))).mono (by decide)).trans
      ((freed_touches _).mono (by decide)))

theorem reseeked_arb (c : Chan) (p : Place) (s : State) :
    (reseeked c p s).arb = { s.arb with
      st := .free, request := s.arb.request.set c (some p), usage := chargedUsage s.arb.usage c s.arb.held,
      awaited := none, stamp := none, clock := 0, releasePending := false } := by
  have hend : (headAtGrantEnd c (charge c (withRequest c (some p) s))).arb = (charge c (withRequest c (some p) s)).arb :=
    headAtGrantEnd_touches c _ .arb (by decide)
  simp only [reseeked, freed, hend]
  rfl

/-- A re-seek while another requester waits ends the grant, and a decision follows (R76, R80). -/
theorem requestArrives_reseek_waiting {c : Chan} {s : State} (h : s.arb.st = .owned c) (hw : Waits s c) (p : Place) :
    requestArrives c p s = decideGrant (reseeked c p s) := by
  have hwaits : otherWaits (withRequest c (some p) s) c = true := by
    rw [otherWaits_iff]
    simpa [Waits, withRequest] using hw
  rw [requestArrives_owned h, if_pos rfl, reseek, if_pos hwaits]
  rfl

/-- A channel whose wait has just begun is not past its limit: of the two the peer wins under the wait limit, or nobody
does (R69). -/
theorem limitWinner_fresh {c : Chan} {s : State} (hm : s.map.mapState = .valid) (hw : (s.view c).wait = 0) :
    limitWinner s =
      if (paramsOf s.map.activeMap (peer c)).lw ≠ 0
          ∧ (paramsOf s.map.activeMap (peer c)).lw ≤ (s.view (peer c)).wait then some (peer c)
      else none := by
  have hfresh : pastLimit s c = false := by
    simp only [pastLimit, hw]
    cases h : (paramsFor s c).lw <;> simp
  have hpeer : pastLimit s (peer c) = true ↔ (paramsOf s.map.activeMap (peer c)).lw ≠ 0
      ∧ (paramsOf s.map.activeMap (peer c)).lw ≤ (s.view (peer c)).wait := by
    simp [pastLimit, paramsFor_valid hm]
  rw [← if_congr hpeer rfl rfl]
  cases c with
  | a => rw [limitWinner, hfresh]; cases h : pastLimit s .b <;> simp [peer, h]
  | b => rw [limitWinner, hfresh]; cases h : pastLimit s .a <;> simp [peer, h]

theorem usageWinner_valid {s : State} (hm : s.map.mapState = .valid) :
    usageWinner s =
      if s.arb.usage.a * (paramsOf s.map.activeMap .b).w < s.arb.usage.b * (paramsOf s.map.activeMap .a).w then .a
      else if s.arb.usage.b * (paramsOf s.map.activeMap .a).w < s.arb.usage.a * (paramsOf s.map.activeMap .b).w then .b
      else peer s.arb.gLast := by
  simp only [usageWinner, paramsFor_valid hm]

/-- A decision between the two channels with a winner under the wait limit (R68, R69). -/
theorem decideGrant_limit {s : State} {z : Chan} (hf : s.arb.st = .free) (hq : s.arb.queue = [])
    (h : ∀ d, s.arb.request.get d ≠ none) (hz : limitWinner s = some z) : decideGrant s = grantByLimit z s := by
  obtain ⟨p, hp⟩ := Option.ne_none_iff_exists'.1 (h .a)
  obtain ⟨q, hq'⟩ := Option.ne_none_iff_exists'.1 (h .b)
  simp only [Pair.get] at hp hq'
  simp [decideGrant, hf, hq, hp, hq', hz]

/-- A decision between the two channels by the usage comparison (R68, R70). -/
theorem decideGrant_byUsage {s : State} (hf : s.arb.st = .free) (hq : s.arb.queue = [])
    (h : ∀ d, s.arb.request.get d ≠ none) (hz : limitWinner s = none) :
    decideGrant s = grantTo (usageWinner s) s := by
  obtain ⟨p, hp⟩ := Option.ne_none_iff_exists'.1 (h .a)
  obtain ⟨q, hq'⟩ := Option.ne_none_iff_exists'.1 (h .b)
  simp only [Pair.get] at hp hq'
  simp [decideGrant, hf, hq, hp, hq', hz]

theorem decideGrant_queue {s : State} (hf : s.arb.st = .free) (hq : s.arb.queue ≠ []) :
    decideGrant s = grantInternal s := by
  simp [decideGrant, hf, hq]

/-- What a decision leaves of a view: as it was, or POSITIONED by a grant (R35, R71). -/
theorem decideGrant_view (c : Chan) (s : State) :
    (decideGrant s).view c = s.view c
      ∨ (s.arb.request.get c ≠ none ∧ (decideGrant s).view c = { s.view c with st := .positioned, idle := 0 }) := by
  have hgrant : ∀ z t, t.view c = s.view c → t.arb.request.get c = s.arb.request.get c →
      (grantTo z t).view c = s.view c
        ∨ (s.arb.request.get c ≠ none ∧ (grantTo z t).view c = { s.view c with st := .positioned, idle := 0 }) := by
    intro z t hv hr
    by_cases hz : c = z
    · subst hz
      cases h : t.arb.request.get c with
      | none => rw [grantTo_none h]; exact .inl hv
      | some p =>
        rw [grantTo_view h, hv]
        split
        · exact .inr ⟨by simp [← hr, h], rfl⟩
        · exact .inl rfl
    · exact .inl (Eq.trans (grantTo_touches z t (.view c) (by simpa using hz)) hv)
  rcases decideGrant_cases s with h | ⟨-, h⟩ | ⟨z, -, h⟩ | ⟨z, -, h⟩ <;> rw [h]
  · exact .inl rfl
  · exact .inl ((grantInternal_eq s).2 (.view c) (by simp))
  · exact hgrant z s rfl rfl
  · exact hgrant z _ rfl rfl

/-- A grant at the decision after a re-seek, to a channel z whose record names a place (R71, R76). -/
theorem grantTo_after_reseek {c z : Chan} {p q : Place} {s t : State} (hm : s.map.mapState = .valid)
    (hq : s.arb.request.get (peer c) = some q) (hst : (s.view c).st = .requesting)
    (ht : TouchesOnly [.relay, .drive, .ev] (reseeked c p s) t) :
    GrantBegun z (if z = c then p else q) s (grantTo z t)
      ∧ (grantTo z t).arb.request.get (peer z) = some (if z = c then q else p)
      ∧ (z ≠ c → ((grantTo z t).view c).st = .requesting) := by
  have harb := Eq.trans (ht .arb (by decide)) (reseeked_arb c p s)
  have hsame : ∀ x : Part, x ∉ [Part.arb, .relay, .drive, .ev] → x.Same s t := fun x hx =>
    (((reseeked_touches c p s).mono (by decide)).trans (ht.mono (by decide))) x hx
  have hmap : t.map = s.map := hsame .map (by decide)
  have hpos : t.pos = s.pos := hsame .pos (by decide)
  have huptime : t.uptime = s.uptime := hsame .uptime (by decide)
  have hown : t.arb.request.get c = some p := by rw [harb]; simp
  have hpeer : t.arb.request.get (peer c) = some q := by rw [harb]; simpa using hq
  have hrecord : ∀ d, t.arb.request.get d = some (if d = c then p else q) := fun d => by
    by_cases hd : d = c
    · rw [if_pos hd, hd, hown]
    · rw [if_neg hd, eq_peer_of_ne hd, hpeer]
  have hbegun := grantTo_begun (hrecord z) (by rw [hmap]; exact hm)
  refine ⟨?begun, ?other, fun hz => ?view⟩
  case begun =>
    unfold GrantBegun at hbegun ⊢
    rw [hmap, hpos, huptime] at hbegun
    exact hbegun
  case other =>
    have hkept : (grantTo z t).arb.request.get (peer z) = t.arb.request.get (peer z) := by
      simp only [grantTo_arb (hrecord z), apply_ite (fun r : Pair (Option Place) => r.get (peer z)),
        Pair.get_set_peer, ite_self]
    rw [hkept, hrecord]
    by_cases hz : z = c
    · simp [hz]
    · simp [eq_peer_of_ne hz]
  case view =>
    rw [show (grantTo z t).view c = _ from grantTo_touches z t (.view c) (by simpa using hz.symm),
      show t.view c = s.view c from hsame (.view c) (by simp), hst]

/-- The decision after a re-seek that another requester waited at (R68 to R71, R76, R81). -/
theorem reseek_decided {c : Chan} {s : State} (p : Place) (hst : (s.view c).st = .requesting)
    (hw : (s.view c).wait = 0) : ReseekDecided c p s (decideGrant (reseeked c p s)) := by
  have harb := reseeked_arb c p s
  have hsame := reseeked_touches c p s
  have hfree : (reseeked c p s).arb.st = .free := by rw [harb]
  have hqueue : (reseeked c p s).arb.queue = s.arb.queue := by rw [harb]
  have hpos : (reseeked c p s).pos = s.pos := hsame .pos (by decide)
  have hmap : (reseeked c p s).map = s.map := hsame .map (by decide)
  have hview : ∀ d, (reseeked c p s).view d = s.view d := fun d => hsame (.view d) (by simp)
  refine ⟨?usage, fun hq => ?internal, fun q hq hpeer hm => ?both⟩
  case usage => rw [decideGrant_usage, harb]
  case internal =>
    obtain ⟨hgranted, htouch⟩ := grantInternal_eq (reseeked c p s)
    rw [decideGrant_queue hfree (by rw [hqueue]; exact hq)]
    refine ⟨?_, ?_⟩
    · rw [hgranted, hpos, harb]
    · rw [show (grantInternal _).view c = _ from htouch (.view c) (by simp), hview, hst]
  case both =>
    have hm' : (reseeked c p s).map.mapState = .valid := by rw [hmap]; exact hm
    have hrecords : ∀ d, (reseeked c p s).arb.request.get d ≠ none := fun d => by
      rw [harb]
      by_cases hd : d = c
      · simp [hd]
      · simp [eq_peer_of_ne hd, hpeer]
    have hlimit := limitWinner_fresh (c := c) hm' (by rw [hview]; exact hw)
    have husage := usageWinner_valid hm'
    rw [hview, hmap] at hlimit
    rw [hmap, harb] at husage
    simp only at husage
    have hq' : (reseeked c p s).arb.queue = [] := by rw [hqueue]; exact hq
    by_cases hpast : (paramsOf s.map.activeMap (peer c)).lw ≠ 0
        ∧ (paramsOf s.map.activeMap (peer c)).lw ≤ (s.view (peer c)).wait
    · rw [if_pos hpast] at hlimit
      rw [decideGrant_limit hfree hq' hrecords hlimit]
      simp only [if_pos hpast]
      exact grantTo_after_reseek hm hpeer hst ((touches_ev _ _).mono (by decide))
    · rw [if_neg hpast] at hlimit
      rw [decideGrant_byUsage hfree hq' hrecords hlimit, husage]
      simp only [if_neg hpast]
      exact grantTo_after_reseek hm hpeer hst (.refl _ _)

end Sys2Proof.Machine
end

section
/-! A view makes a request for its target (R23, R65, R123): where it is let through, and where it is deferred with the peer
not DEFERRED. Then the orders of an owner, and those at a FREE arbiter. -/

namespace Sys2Proof.Machine

/-! ## A request let through -/

/-- A view in REQUESTING, with its deferred request gone (R23, R123). -/
def asRequesting (c : Chan) (s : State) : State :=
  setView c { s.view c with st := .requesting, wait := (s.view c).waitAtRequest }
    { s with ilock := { s.ilock with deferred := s.ilock.deferred.set c none } }

@[simp] theorem asRequesting_view (c : Chan) (s : State) :
    (asRequesting c s).view c = { s.view c with st := .requesting, wait := (s.view c).waitAtRequest } := by
  simp [asRequesting]

theorem asRequesting_touches (c : Chan) (s : State) : TouchesOnly [.view c, .ilock] s (asRequesting c s) :=
  ((touches_ilock s _).mono (by cases c <;> decide)).trans ((touches_view c _ _).mono (by cases c <;> decide))

theorem place_of_target {v : View} {t : Target} (h : v.target = some t) : v.place = some ⟨v.sel.vol, t.physical⟩ := by
  simp [View.place, h]

theorem blocked_of_target {c : Chan} {s : State} {t : Target} (h : (s.view c).target = some t) :
    blocked s c = heldBy s (peer c) ⟨(s.view c).sel.vol, t.physical⟩ := by
  simp [blocked, place_of_target h]

/-- A request that no interlock holds is let through to the arbiter (R23, R65, R123). -/
theorem makeRequest_letThrough {c : Chan} {s : State} {t : Target} (ht : (s.view c).target = some t)
    (hb : heldBy s (peer c) ⟨(s.view c).sel.vol, t.physical⟩ = false) :
    makeRequest c s = requestArrives c ⟨(s.view c).sel.vol, t.physical⟩ (asRequesting c s) := by
  have hplace : ((setView c { s.view c with wait := (s.view c).waitAtRequest } s).view c).place =
      some ⟨(s.view c).sel.vol, t.physical⟩ := by
    rw [setView_view_self]
    exact place_of_target (v := { s.view c with wait := (s.view c).waitAtRequest }) ht
  rw [makeRequest, blocked_of_target ht, hb, if_neg (by simp)]
  simp only [letThrough, hplace]
  congr 1
  cases c <;> rfl

/-- The wait count at a request out of a state other than POSITIONED (R43). -/
theorem waitAtRequest_eq {v : View} (h : v.st ≠ .positioned) :
    v.waitAtRequest = if v.st = .standby then 0 else v.wait := by
  unfold View.waitAtRequest
  cases hs : v.st <;> simp_all

theorem waitAtRequest_positioned {v : View} (h : v.st = .positioned) : v.waitAtRequest = 0 := by
  simp [View.waitAtRequest, h]

/-! ## A request deferred -/

/-- A view in DEFERRED, with its deferred request held (R123). -/
def asDeferred (c : Chan) (p : Place) (s : State) : State :=
  setView c { s.view c with st := .deferred, wait := (s.view c).waitAtRequest }
    { s with ilock := { s.ilock with deferred := s.ilock.deferred.set c (some p) } }

@[simp] theorem asDeferred_view (c : Chan) (p : Place) (s : State) :
    (asDeferred c p s).view c = { s.view c with st := .deferred, wait := (s.view c).waitAtRequest } := by
  simp [asDeferred]

theorem asDeferred_touches (c : Chan) (p : Place) (s : State) : TouchesOnly [.view c, .ilock] s (asDeferred c p s) :=
  ((touches_ilock s _).mono (by cases c <;> decide)).trans ((touches_view c _ _).mono (by cases c <;> decide))

/-- A blocked view out of STANDBY or DEFERRED is deferred, and yields to a peer that is DEFERRED (R123, R126). -/
theorem makeRequest_defers {c : Chan} {s : State} {t : Target} (ht : (s.view c).target = some t)
    (hv : (s.view c).st ∈ [ViewState.standby, .deferred])
    (hb : heldBy s (peer c) ⟨(s.view c).sel.vol, t.physical⟩ = true) :
    makeRequest c s =
      let u := asDeferred c ⟨(s.view c).sel.vol, t.physical⟩ s
      if (s.view (peer c)).st = .deferred then yieldTo c u else u := by
  rw [makeRequest, blocked_of_target ht, hb, if_pos rfl]
  simp only [List.mem_cons, List.not_mem_nil, or_false] at hv
  unfold deferRequest
  rw [place_of_target ht]
  rcases hv with hv | hv <;> simp only [hv, decide_eq_true_eq] <;> rfl

/-- A blocked view out of REQUESTING is deferred, its request withdrawn (R65, R123, R126). -/
theorem makeRequest_withdraws {c : Chan} {s : State} {t : Target} (ht : (s.view c).target = some t)
    (hv : (s.view c).st = .requesting)
    (hb : heldBy s (peer c) ⟨(s.view c).sel.vol, t.physical⟩ = true) :
    makeRequest c s =
      let u := withdrawRequest c (asDeferred c ⟨(s.view c).sel.vol, t.physical⟩ s)
      if (s.view (peer c)).st = .deferred then yieldTo c u else u := by
  rw [makeRequest, blocked_of_target ht, hb, if_pos rfl]
  unfold deferRequest
  rw [place_of_target ht]
  simp only [hv, decide_eq_true_eq]
  rfl

/-- A record removed ends the waiting beside a peer that owns the actuator, where nobody else waits (R65, R66, R78). -/
theorem removeRequest_eq (c : Chan) (s : State) : removeRequest c s = { s with arb := withoutRequest s c } := by
  have hends : ∀ x, s.arb.st = .owned x →
      ((otherWaits s x && !otherWaits (withRequest c none s) x) = true ↔
        s.arb.st = .owned (peer c) ∧ s.arb.request.get c ≠ none ∧ s.arb.queue = []) := by
    intro x hx
    rw [Bool.and_eq_true, Bool.not_eq_true', not_otherWaits_iff, otherWaits_iff, hx]
    by_cases hxc : x = c
    · subst hxc
      simp only [Waits, withRequest, Pair.get_set_peer, ArbState.owned.injEq, ne_peer, false_and, iff_false]
      rintro ⟨hw | hw, hn, hq⟩
      · exact hw hn
      · exact hw hq
    · rw [eq_peer_of_ne hxc]
      simp only [Waits, withRequest, peer_peer, Pair.get_set_self, true_and]
      constructor
      · rintro ⟨hw | hw, hq⟩
        · exact ⟨hw, hq⟩
        · exact absurd hq hw
      · exact fun ⟨hr, hq⟩ => ⟨.inl hr, hq⟩
  by_cases hown : ∃ x, s.arb.st = .owned x
  · obtain ⟨x, hx⟩ := hown
    have hremove : removeRequest c s =
        if otherWaits s x && !otherWaits (withRequest c none s) x then waitingEnded (withRequest c none s)
        else withRequest c none s := by
      rcases s with ⟨_, _, _, ⟨st⟩⟩
      obtain rfl : st = .owned x := hx
      rfl
    rw [hremove]
    simp only [hends x hx, withoutRequest]
    split <;> rfl
  · have hremove : removeRequest c s = withRequest c none s := by
      unfold removeRequest
      simp only
      split
      · rename_i x hx
        exact absurd ⟨x, hx⟩ hown
      · rfl
    have hno : ¬(s.arb.st = .owned (peer c) ∧ s.arb.request.get c ≠ none ∧ s.arb.queue = []) :=
      fun h => hown ⟨_, h.1⟩
    rw [hremove]
    simp only [withoutRequest, hno, if_false]
    rfl

/-- A claim whose seek is held ends with its request; any other stays (R65, R73, R91). -/
theorem withdrawRequest_claim {c : Chan} {k : ClaimKind} {n : Nat} {s : State} (h : s.arb.st = .claimed c k)
    (hh : s.pos.held = some n) :
    withdrawRequest c s = claimEnd c (decide (k = .continuing)) { s with arb := withoutRequest s c } := by
  rw [← removeRequest_eq]
  rcases s with ⟨_, _, _, ⟨st⟩, ⟨_, _, _, _, held⟩⟩
  obtain rfl : st = .claimed c k := h
  obtain rfl : held = some n := hh
  simp [withdrawRequest]

theorem withdrawRequest_record {c : Chan} {s : State}
    (h : ¬((∃ k, s.arb.st = .claimed c k) ∧ s.pos.held ≠ none)) :
    withdrawRequest c s = { s with arb := withoutRequest s c } := by
  rw [← removeRequest_eq]
  unfold withdrawRequest
  simp only
  split
  · rename_i x k hx
    split
    · rename_i hheld
      simp only [Bool.and_eq_true, decide_eq_true_eq, Option.isSome_iff_ne_none] at hheld
      obtain ⟨rfl, hheld⟩ := hheld
      exact absurd ⟨⟨k, hx⟩, hheld⟩ h
    · rfl
  · rfl

/-! ## Orders that make a request -/

theorem strobed_touches (c : Chan) (s : State) : TouchesOnly [.view c, .port c] s (strobed c s) :=
  ((touches_view c _ s).mono (by cases c <;> decide)).trans ((touches_port c _ _).mono (by cases c <;> decide))

theorem acknowledge_touches (c : Chan) (s : State) : TouchesOnly [.port c] s (acknowledge c s) := touches_port c _ s

@[simp] theorem acknowledge_view (c d : Chan) (s : State) : (acknowledge c s).view d = s.view d := rfl

@[simp] theorem acknowledge_ack (c : Chan) (s : State) : ((acknowledge c s).port c).ack = true := by simp [acknowledge]

/-- The part in which an order has set the view c, before the request it makes. -/
def ordered (c : Chan) (v : View) (s : State) : State := setView c v (strobed c s)

@[simp] theorem ordered_view (c : Chan) (v : View) (s : State) : (ordered c v s).view c = v := by simp [ordered]

@[simp] theorem ordered_view_peer (c : Chan) (v : View) (s : State) :
    (ordered c v s).view (peer c) = s.view (peer c) := by simp [ordered, strobed]

theorem ordered_touches (c : Chan) (v : View) (s : State) : TouchesOnly [.view c, .port c] s (ordered c v s) :=
  (strobed_touches c s).trans ((touches_view c v _).mono (by cases c <;> decide))

@[simp] theorem heldBy_ordered (c d : Chan) (v : View) (s : State) (p : Place) :
    heldBy (ordered c v s) d p = heldBy s d p := by cases c <;> rfl

/-- What an order that makes a request touches beside what the request does. -/
theorem acknowledge_ordered_touches {l : List Part} {c : Chan} {v : View} {s t : State}
    (h : TouchesOnly l (ordered c v s) t) : TouchesOnly (.view c :: .port c :: l) s (acknowledge c t) := by
  refine ((ordered_touches c v s).mono ?_).trans ((h.mono ?_).trans ((acknowledge_touches c t).mono ?_)) <;>
    intro p hp <;> simp only [List.mem_cons, List.not_mem_nil, or_false] at hp ⊢ <;> tauto

/-- An order acknowledged that has set its view, the arbiter and the Interlock Unit. -/
theorem acknowledge_ordered {c : Chan} {v x : View} {s : State} {a : Arbiter} {i : Interlock} (hx : x.idle = 0) :
    acknowledge c (setView c x { ordered c v s with arb := a, ilock := i }) =
      orderDone c x { s with arb := a, ilock := i } := by
  obtain ⟨_, _, _, _, _, _, _, _, idle, _⟩ := x
  obtain rfl : idle = 0 := hx
  cases c <;> rfl

/-- A mapped CYLINDER order makes a request for its target, but at the owner standing on it (R24). -/
theorem exec_cylinderOrder_mapped {c : Chan} {s : State} {value : BitVec 10} {t : Target} (h : TakesOrders s c)
    (hv : (s.view c).st ∈ [ViewState.standby, .requesting, .deferred, .positioned])
    (hm : Maps s c (s.view c).sel.vol value.toNat t)
    (hs : ¬((s.view c).st = .positioned ∧ (s.view c).target.map (·.physical) = some t.physical)) (w : Carried) :
    exec (.cylinderOrder c value w) s =
      .next (acknowledge c (makeRequest c
        (ordered c { s.view c with target := some t, seekError := false, idle := 0 } s))) := by
  have hmapped : translate (strobed c s) c (s.view c).sel.vol value.toNat = .mapped t := translate_mapped hm
  have htransfer : (s.view c).st ≠ .transferring := by
    intro h
    simp [h] at hv
  have hstands : standsOn { s.view c with idle := 0 } t.physical = false := by
    simpa [standsOn, Bool.eq_false_iff] using hs
  rw [exec_cylinderOrder h htransfer, cylinderEffect_translates (by simpa using hv)]
  simp only [translateOrder, strobed_view, hmapped, hstands, Bool.false_eq_true, if_false]
  rfl

/-- A CYLINDER order on the cylinder its owner stands on (R24). -/
theorem exec_cylinderOrder_stands {c : Chan} {s : State} {value : BitVec 10} {t : Target} (h : TakesOrders s c)
    (hv : (s.view c).st = .positioned) (hm : Maps s c (s.view c).sel.vol value.toNat t)
    (ht : (s.view c).target.map (·.physical) = some t.physical) (w : Carried) :
    exec (.cylinderOrder c value w) s =
      .next (orderDone c { s.view c with target := some t, seekError := false } s) := by
  have hmapped : translate (strobed c s) c (s.view c).sel.vol value.toNat = .mapped t := translate_mapped hm
  have hstands : standsOn { s.view c with idle := 0 } t.physical = true := by simp [standsOn, hv, ht]
  rw [exec_cylinderOrder h (by simp [hv]), cylinderEffect_translates (by simp [hv])]
  simp only [translateOrder, strobed_view, hmapped, hstands, if_true]
  cases c <;> rfl

/-! ## At a FREE arbiter -/

theorem Maps.valid {s : State} {c : Chan} {v : Vol} {n : Nat} {t : Target} (h : Maps s c v n t) :
    s.map.mapState = .valid := ((usableVol_iff s v).1 h.1).1.2

/-- A request let through to a FREE arbiter where nobody else waits is granted (R65, R68, R71). -/
theorem makeRequest_free {c : Chan} {s : State} {t : Target} (ht : (s.view c).target = some t)
    (hb : heldBy s (peer c) ⟨(s.view c).sel.vol, t.physical⟩ = false) (hf : s.arb.st = .free) (hq : s.arb.queue = [])
    (hp : s.arb.request.get (peer c) = none) :
    makeRequest c s =
      grantTo c (withRequest c (some ⟨(s.view c).sel.vol, t.physical⟩) (asRequesting c s)) := by
  rw [makeRequest_letThrough ht hb]
  exact requestArrives_free (s := asRequesting c s) hf hq hp _

/-- What a grant to a channel does that has just requested: the grant begun, its view, and the seek (R71, R91, R92). -/
theorem grantTo_asRequesting {c : Chan} {s : State} (p : Place) (hm : s.map.mapState = .valid) :
    let u := grantTo c (withRequest c (some p) (asRequesting c s))
    GrantBegun c p s u ∧ u.arb.usage = s.arb.usage
      ∧ TouchesOnly [.view c, .arb, .pos, .drive, .relay, .ilock] s u
      ∧ (u.view c).target = (s.view c).target ∧ (u.view c).seekError = (s.view c).seekError
      ∧ (s.pos.cyl = some p.cyl → u.arb.request.get c = none)
      ∧ (s.pos.cyl ≠ some p.cyl → (u.view c).st = .requesting)
      ∧ ((∃ n, s.pos.cyl = some n ∧ n ≠ p.cyl) → s.pos.st = .idle → driveTroubled s = false →
          u.pos.st = .seeking ∧ OrderAsked (.cylinder p.cyl) u) := by
  have hr : (withRequest c (some p) (asRequesting c s)).arb.request.get c = some p := by simp [withRequest]
  have harb := grantTo_arb hr
  have hview := grantTo_view hr
  have hold : (withRequest c (some p) (asRequesting c s)).view c = (asRequesting c s).view c := rfl
  have hcyl : (withRequest c (some p) (asRequesting c s)).pos.cyl = s.pos.cyl := rfl
  rw [hold, asRequesting_view, hcyl] at hview
  rw [hcyl] at harb
  refine ⟨grantTo_begun hr hm, by rw [grantTo_usage]; rfl, ?frame, ?target, ?seekError, fun h => ?record,
    fun h => ?requesting, fun hn hi ht => ?seek⟩
  case frame =>
    exact ((asRequesting_touches c s).mono (by cases c <;> decide)).trans
      (((touches_arb _ _).mono (by cases c <;> decide)).trans ((grantTo_touches c _).mono (by cases c <;> decide)))
  case target => rw [hview]; split <;> rfl
  case seekError => rw [hview]; split <;> rfl
  case record => rw [harb]; simp [h]
  case requesting => rw [hview, if_neg h]
  case seek =>
    obtain ⟨n, hn, hne⟩ := hn
    have helse : s.pos.cyl ≠ some p.cyl := by
      rw [hn]
      simpa using hne
    rw [grantTo_elsewhere hr helse]
    have hknown : s.pos.cyl ≠ none := by rw [hn]; simp
    exact askSeek_begins hi hknown ht

/-- Settles O13: the decision is a grant to the channel. -/
theorem cylinderOrderAtFreeArbiter : Obligations.CylinderOrderAtFreeArbiter := by
  intro c value w s t h hv hm hb hf hq hp
  have hst : (s.view c).st ≠ .positioned ∧ (s.view c).st ≠ .transferring := by
    constructor <;> intro hs <;> simp [hs] at hv
  have he := exec_cylinderOrder_mapped h (by simp at hv ⊢; tauto) hm (fun hs => hst.1 hs.1) w
  rw [makeRequest_free (t := t) (by simp) (by simpa using hb) (by exact hf) (by exact hq) (by exact hp),
    ordered_view] at he
  obtain ⟨hbegun, husage, htouch, htarget, herror, hrecord, hrequesting, hseek⟩ :=
    grantTo_asRequesting (c := c) (s := ordered c { s.view c with target := some t, seekError := false, idle := 0 } s)
      ⟨(s.view c).sel.vol, t.physical⟩ hm.valid
  rw [ordered_view] at htarget herror
  obtain ⟨hlast, hstamp, hheld, hclock, -, hbudget, hthere, helse⟩ := hbegun
  refine ⟨_, he, exec_recalibrate_eq h hst.2 he, htarget, herror, acknowledge_ack _ _, hstamp, hheld, hlast, hclock,
    hbudget, husage, (acknowledge_ordered_touches htouch).mono ?_, fun hc => ?_, fun hc => ?_, hseek⟩
  · cases c <;> decide
  · obtain ⟨hown, hpos⟩ := hthere hc
    exact ⟨hpos, hown, hrecord hc⟩
  · obtain ⟨hclaim, hawaited⟩ := helse hc
    exact ⟨hrequesting hc, hclaim, hawaited⟩

/-! ## Orders of the owner -/

/-- A re-seek while nobody else waits (R76). -/
theorem makeRequest_reseek {c : Chan} {s : State} {t : Target} (ht : (s.view c).target = some t)
    (hv : (s.view c).st = .positioned) (hb : heldBy s (peer c) ⟨(s.view c).sel.vol, t.physical⟩ = false)
    (ho : s.arb.st = .owned c) (hq : s.arb.queue = []) (hp : s.arb.request.get (peer c) = none) :
    (makeRequest c s).view c = { s.view c with st := .requesting, wait := 0 }
      ∧ (makeRequest c s).arb = { s.arb with
          st := .claimed c .continuing, awaited := some t.physical,
          request := s.arb.request.set c (some ⟨(s.view c).sel.vol, t.physical⟩) }
      ∧ TouchesOnly [.view c, .arb, .pos, .drive, .ilock] s (makeRequest c s) := by
  obtain ⟨harb, htouch⟩ := requestArrives_reseek (s := asRequesting c s) ho hq hp ⟨(s.view c).sel.vol, t.physical⟩
  rw [makeRequest_letThrough ht hb]
  refine ⟨?_, harb, ((asRequesting_touches c s).mono (by cases c <;> decide)).trans (htouch.mono (by cases c <;> decide))⟩
  rw [show (requestArrives c _ (asRequesting c s)).view c = _ from htouch (.view c) (by simp), asRequesting_view,
    waitAtRequest_positioned hv]

/-- A re-seek while another requester waits (R76, R80). -/
theorem makeRequest_reseek_waiting {c : Chan} {s : State} {t : Target} (ht : (s.view c).target = some t)
    (hv : (s.view c).st = .positioned) (hi : (s.view c).idle = 0)
    (hb : heldBy s (peer c) ⟨(s.view c).sel.vol, t.physical⟩ = false) (ho : s.arb.st = .owned c) (hw : Waits s c) :
    (makeRequest c s).view c = { s.view c with st := ((makeRequest c s).view c).st, wait := 0, idle := 0 }
      ∧ ReseekDecided c ⟨(s.view c).sel.vol, t.physical⟩ s (makeRequest c s)
      ∧ TouchesOnly Part.reached s (makeRequest c s) := by
  have hdecided := reseek_decided (c := c) (s := asRequesting c s) ⟨(s.view c).sel.vol, t.physical⟩ (by simp)
    (by simp [waitAtRequest_positioned hv])
  have hold : (reseeked c ⟨(s.view c).sel.vol, t.physical⟩ (asRequesting c s)).view c =
      { s.view c with st := .requesting, wait := 0, idle := 0 } := by
    rw [show (reseeked c _ (asRequesting c s)).view c = _ from reseeked_touches c _ _ (.view c) (by simp),
      asRequesting_view, waitAtRequest_positioned hv, ← hi]
  have hview := decideGrant_view c (reseeked c ⟨(s.view c).sel.vol, t.physical⟩ (asRequesting c s))
  have hmoves := (makeRequest_moves c s).frame
  rw [makeRequest_letThrough ht hb, requestArrives_reseek_waiting (s := asRequesting c s) ho hw] at hmoves ⊢
  refine ⟨?_, ?_, hmoves⟩
  · rw [hold] at hview
    rcases hview with h | ⟨-, h⟩ <;> rw [h]
  · cases c <;> exact hdecided

/-- Settles O15: by whether the owner stands on the cylinder, and by whether another requester waits. -/
theorem orderOfTheOwner : Obligations.OrderOfTheOwner := by
  intro c value w s t h hv hm
  have htransfer : (s.view c).st ≠ .transferring := by simp [hv]
  refine ⟨fun ht => ?stands, fun ht hb ho hq hp => ?alone, fun ht hb ho hw => ?waiting⟩
  case stands =>
    have he := exec_cylinderOrder_stands h hv hm ht w
    exact ⟨he, exec_recalibrate_eq h htransfer he⟩
  case alone =>
    have he := exec_cylinderOrder_mapped h (by simp [hv]) hm (fun hs => ht hs.2) w
    obtain ⟨hview, harb, htouch⟩ := makeRequest_reseek (c := c) (t := t)
      (s := ordered c { s.view c with target := some t, seekError := false, idle := 0 } s)
      (by simp) (by simpa using hv) (by simpa using hb) ho hq hp
    rw [ordered_view] at hview harb
    exact ⟨_, he, exec_recalibrate_eq h htransfer he, hview, harb, acknowledge_ack _ _,
      (acknowledge_ordered_touches htouch).mono (by cases c <;> decide)⟩
  case waiting =>
    have he := exec_cylinderOrder_mapped h (by simp [hv]) hm (fun hs => ht hs.2) w
    obtain ⟨hview, hdecided, htouch⟩ := makeRequest_reseek_waiting (c := c) (t := t)
      (s := ordered c { s.view c with target := some t, seekError := false, idle := 0 } s)
      (by simp) (by simpa using hv) (by simp) (by simpa using hb) ho hw
    rw [ordered_view] at hview hdecided
    refine ⟨_, he, exec_recalibrate_eq h htransfer he, hview, acknowledge_ack _ _, ?_,
      (acknowledge_ordered_touches htouch).mono (by cases c <;> decide)⟩
    cases c <;> exact hdecided

end Sys2Proof.Machine
end

section
/-! What the arbiter's operations leave of a view that is not POSITIONED (`MayGrant`), the removal of a channel's chain, and
a view that yields (R65, R68, R71, R125, R126). -/

namespace Sys2Proof.Machine

/-! ## A view that is not POSITIONED, through the arbiter -/

/-- The view of c is kept, but for a grant to its record, and its deferred request too; without a record nothing is
recorded for c and no event occurs (R68, R71). -/
structure MayGrant (c : Chan) (s t : State) : Prop where
  view  : t.view c = s.view c
    ∨ (s.arb.request.get c ≠ none ∧ t.view c = { s.view c with st := .positioned, idle := 0 })
  quiet : s.arb.request.get c = none → t.arb.request.get c = none ∧ t.ev = s.ev
  deferred : t.ilock.deferred.get c = s.ilock.deferred.get c

theorem MayGrant.kept {c : Chan} {s t : State} (hv : t.view c = s.view c)
    (hr : t.arb.request.get c = s.arb.request.get c) (he : t.ev = s.ev)
    (hd : t.ilock.deferred.get c = s.ilock.deferred.get c) : MayGrant c s t :=
  ⟨.inl hv, fun h => ⟨hr.trans h, he⟩, hd⟩

/-- What leaves the view, its record and the event unit may come first. -/
theorem MayGrant.after {c : Chan} {s t u : State} (h : MayGrant c t u) (hv : t.view c = s.view c)
    (hr : t.arb.request.get c = s.arb.request.get c) (he : t.ev = s.ev)
    (hd : t.ilock.deferred.get c = s.ilock.deferred.get c) : MayGrant c s u := by
  obtain ⟨hview, hquiet, hdeferred⟩ := h
  rw [hv, hr] at hview
  rw [hr, he] at hquiet
  exact ⟨hview, hquiet, hdeferred.trans hd⟩

theorem MayGrant.view_kept {c : Chan} {s t : State} (h : MayGrant c s t) (hr : s.arb.request.get c = none) :
    t.view c = s.view c := h.view.resolve_right fun hg => hg.1 hr

@[simp] theorem withRequest_view (c d : Chan) (p : Option Place) (s : State) : (withRequest c p s).view d = s.view d := rfl

theorem grantTo_request (z : Chan) (s : State) :
    (grantTo z s).arb.request = s.arb.request ∨ (grantTo z s).arb.request = s.arb.request.set z none := by
  cases h : s.arb.request.get z with
  | none => rw [grantTo_none h]; exact .inl rfl
  | some p =>
    rw [grantTo_arb h]
    by_cases hc : s.pos.cyl = some p.cyl
    · exact .inr (if_pos hc)
    · exact .inl (if_neg hc)

theorem decideGrant_mayGrant (c : Chan) (s : State) : MayGrant c s (decideGrant s) := by
  have hilock : (decideGrant s).ilock = s.ilock := decideGrant_touches s .ilock (by decide)
  refine ⟨decideGrant_view c s, fun hn => ?_, by rw [hilock]⟩
  rcases decideGrant_cases s with h | ⟨-, h⟩ | ⟨z, -, h⟩ | ⟨z, hall, -⟩
  · rw [h]; exact ⟨hn, rfl⟩
  · obtain ⟨harb, htouch⟩ := grantInternal_eq s
    rw [h]
    exact ⟨by rw [harb]; exact hn, htouch .ev (by decide)⟩
  · rw [h]
    refine ⟨?_, grantTo_touches z s .ev (by simp)⟩
    rcases grantTo_request z s with hr | hr <;> rw [hr]
    · exact hn
    · by_cases hz : c = z
      · simp [hz]
      · rw [eq_peer_of_ne hz] at hn ⊢
        simpa using hn
  · exact absurd hn (hall c)

/-- The end of a grant by release leaves a view that is not POSITIONED, but for the decision (R77, R80). -/
theorem grantEnd_release_mayGrant {c : Chan} {s : State} (x : Chan) (hv : (s.view c).st ≠ .positioned) :
    MayGrant c s (grantEnd x .release s) := by
  have hview : (released x s).view c = s.view c := by
    by_cases hx : c = x
    · subst hx
      rw [released_view, if_neg hv]
    · exact released_touches x s (.view c) (by simpa using hx)
  rw [grantEnd_release]
  exact (decideGrant_mayGrant c _).after hview (by rw [released_arb]) (released_touches x s .ev (by simp))
    (by rw [show (released x s).ilock = s.ilock from released_touches x s .ilock (by simp)])

theorem judgeRelease_mayGrant {c : Chan} {s : State} (hv : (s.view c).st ≠ .positioned) :
    MayGrant c s (judgeRelease s) := by
  by_cases hown : ∃ x, s.arb.st = .owned x
  · obtain ⟨x, hx⟩ := hown
    rw [judgeRelease_owned hx]
    split
    · exact grantEnd_release_mayGrant x hv
    · exact .kept rfl rfl rfl rfl
  · have hsame : judgeRelease s = s := by
      unfold judgeRelease
      split
      · rename_i x hx
        exact absurd ⟨x, hx⟩ hown
      · rfl
    rw [hsame]
    exact .kept rfl rfl rfl rfl

/-- A claim that ends leaves the views, but for the decision (R73, R80, R91). -/
theorem claimEnd_mayGrant (c x : Chan) (b : Bool) (s : State) : MayGrant c s (claimEnd x b s) := by
  have hend := headAtGrantEnd_touches x { (if b then charge x s else s) with pos := { s.pos with held := none } }
  have harb := hend .arb (by decide)
  have hview := hend (.view c) (by simp)
  have hev := hend .ev (by decide)
  have hilock := hend .ilock (by decide)
  simp only [Part.Same] at harb hview hev hilock
  rw [claimEnd, toFree_eq]
  refine (decideGrant_mayGrant c _).after ?_ ?_ ?_ ?_
  · refine Eq.trans hview ?_
    cases b <;> rfl
  · simp only [freed, harb]
    cases b <;> rfl
  · refine Eq.trans hev ?_
    cases b <;> rfl
  · simp only [freed, hilock]
    cases b <;> rfl

/-- A request that arrives, of either channel, leaves a view that is not POSITIONED, but for a grant (R65, R68). -/
theorem requestArrives_mayGrant {c : Chan} {s : State} (d : Chan) (p : Place) (hv : (s.view c).st ≠ .positioned) :
    MayGrant c (withRequest d (some p) s) (requestArrives d p s) := by
  have hsame : MayGrant c (withRequest d (some p) s) (withRequest d (some p) s) := .kept rfl rfl rfl rfl
  have hst : ((withRequest d (some p) s).view c).st ≠ .positioned := hv
  cases h : s.arb.st with
  | free =>
    have hdecide : requestArrives d p s = decideGrant (withRequest d (some p) s) := by
      rcases s with ⟨_, _, _, ⟨st⟩⟩
      obtain rfl : st = .free := h
      rfl
    rw [hdecide]
    exact decideGrant_mayGrant c _
  | claimed x k =>
    rw [requestArrives_claim h]
    unfold retargetHeld
    split
    · split <;> exact .kept rfl rfl rfl rfl
    · exact hsame
  | owned x =>
    rw [requestArrives_owned h]
    split
    · unfold reseek
      split
      · have hend := headAtGrantEnd_touches d (charge d (withRequest d (some p) s))
        have harb : _ = _ := hend .arb (by decide)
        have hgrantEnd : grantEnd d .reseek (withRequest d (some p) s) =
            decideGrant (freed (headAtGrantEnd d (charge d (withRequest d (some p) s)))) := rfl
        rw [hgrantEnd]
        have hilock : _ = _ := hend .ilock (by decide)
        refine (decideGrant_mayGrant c _).after (hend (.view c) (by simp)) ?_ (hend .ev (by decide)) ?_
        · simp only [freed, harb]
          rfl
        · simp only [freed, hilock]
          rfl
      · have hseek := seekFor_touches p.cyl
          { withRequest d (some p) s with arb := { (withRequest d (some p) s).arb with st := .claimed d .continuing } }
        have hilock : _ = _ := hseek .ilock (by decide)
        exact .kept (hseek (.view c) (by simp)) (by rw [seekFor_arb]) (hseek .ev (by decide)) (by rw [hilock])
    · split
      · exact hsame
      · exact judgeRelease_mayGrant hst
  | internal => rw [requestArrives_keeps (.inl h)]; exact hsame
  | halted => rw [requestArrives_keeps (.inr (.inl h))]; exact hsame

/-! ## A chain removed -/

/-- A channel's entries gone from the list, before the release test of its peer (R125). -/
def withoutChain (c : Chan) (s : State) : State :=
  { s with ilock := s.ilock.remove fun e => decide (e.holder = c) }

/-- A chain removed: where there was one, the release test of the peer (R125). -/
theorem removeChain_eq (c : Chan) (s : State) :
    removeChain c s = if entriesOf s c = [] then withoutChain c s else releaseTest (peer c) (withoutChain c s) := by
  have hother : anyEntryOf s (peer c) (fun e => decide (e.holder = c)) = false := by
    rw [anyEntryOf, List.any_eq_false]
    intro e _
    simp only [Bool.and_eq_true, decide_eq_true_eq, not_and]
    intro hp hc
    exact peer_ne c (hp.symm.trans hc)
  have hown : anyEntryOf s c (fun e => decide (e.holder = c)) = true ↔ ¬entriesOf s c = [] := by
    simp [anyEntryOf, entriesOf]
  cases c with
  | a =>
    simp only [peer] at hother
    simp only [removeChain, removeEntries, hother, Bool.false_eq_true, if_false, hown, peer, ite_not]
    rfl
  | b =>
    simp only [peer] at hother
    simp only [removeChain, removeEntries, hother, Bool.false_eq_true, if_false, hown, peer, ite_not]
    rfl

/-- With no entry of the peer's a DEFERRED view is released (R125, R126). -/
theorem releaseTest_released {d : Chan} {s : State} (hd : (s.view d).st = .deferred) (hb : blocked s d = false) :
    releaseTest d s = letThrough d s := by
  simp [releaseTest, hd, hb]

theorem letThrough_eq {d : Chan} {s : State} {p : Place} (h : (s.view d).place = some p) :
    letThrough d s = requestArrives d p (setDeferred d none (setViewState d .requesting s)) := by
  simp only [letThrough, h]

/-- A view let through is not DEFERRED (R125). -/
theorem letThrough_st (d : Chan) (s : State) : ((letThrough d s).view d).st ≠ .deferred := by
  have hst : ((setDeferred d none (setViewState d .requesting s)).view d).st = .requesting := by simp [setViewState]
  cases h : (s.view d).place with
  | none => simp only [letThrough, h, hst]; decide
  | some p =>
    rw [letThrough_eq h]
    rcases (requestArrives_mayGrant (c := d) d p (by rw [hst]; decide)).view with hv | ⟨-, hv⟩ <;> rw [hv]
    · rw [withRequest_view, hst]; decide
    · simp

/-- The release of a channel leaves its peer, but for a grant (R125). -/
theorem letThrough_mayGrant {c : Chan} {s : State} (hv : (s.view c).st ≠ .positioned) :
    MayGrant c s (letThrough (peer c) s) := by
  have hview : (setDeferred (peer c) none (setViewState (peer c) .requesting s)).view c = s.view c := by
    simp [setViewState]
  cases h : (s.view (peer c)).place with
  | none =>
    simp only [letThrough, h]
    exact .kept hview rfl rfl (by cases c <;> rfl)
  | some p =>
    rw [letThrough_eq h]
    exact (requestArrives_mayGrant (peer c) p (by rw [hview]; exact hv)).after hview (by cases c <;> rfl) rfl
      (by cases c <;> rfl)

theorem releaseTest_mayGrant {c : Chan} {s : State} (hv : (s.view c).st ≠ .positioned) :
    MayGrant c s (releaseTest (peer c) s) := by
  unfold releaseTest
  split
  · split
    · exact .kept rfl rfl rfl (by cases c <;> rfl)
    · exact letThrough_mayGrant hv
  · exact .kept rfl rfl rfl rfl

theorem removeChain_mayGrant {c : Chan} {s : State} (hv : (s.view c).st ≠ .positioned) :
    MayGrant c s (removeChain c s) := by
  have hfirst : MayGrant c s (withoutChain c s) := .kept rfl rfl rfl rfl
  rw [removeChain_eq]
  split
  · exact hfirst
  · exact (releaseTest_mayGrant (s := withoutChain c s) hv).after rfl rfl rfl rfl

theorem blocked_withoutChain (c : Chan) (s : State) : blocked (withoutChain c s) (peer c) = false := by
  unfold blocked
  split
  · simp only [heldBy, withoutChain, Interlock.remove, peer_peer, List.any_filter, List.any_eq_false]
    intro e _
    by_cases h : e.holder = c <;> simp [h]
  · rfl

/-- A channel's chain removed releases a peer that it blocked (R125). -/
theorem removeChain_releases {c : Chan} {s : State} (hb : blocked s (peer c) = true) :
    ((removeChain c s).view (peer c)).st ≠ .deferred := by
  have hsome : entriesOf s c ≠ [] := by
    intro hn
    unfold blocked at hb
    split at hb
    · simp only [heldBy, peer_peer, List.any_eq_true, Bool.and_eq_true, decide_eq_true_eq] at hb
      obtain ⟨e, he, hholder, -⟩ := hb
      have hmem : e ∈ entriesOf s c := List.mem_filter.2 ⟨he, by simpa using hholder⟩
      simp [hn] at hmem
    · simp at hb
  rw [removeChain_eq, if_neg hsome]
  by_cases hd : (s.view (peer c)).st = .deferred
  · rw [releaseTest_released (s := withoutChain c s) hd (blocked_withoutChain c s)]
    exact letThrough_st (peer c) _
  · rw [releaseTest, if_neg (show ¬((withoutChain c s).view (peer c)).st = .deferred from hd)]
    exact hd

/-! ## A view that yields -/

/-- A view without a record that yields: it stays, its chain and E21 apart, and the peer it blocked is released (R126). -/
theorem yieldTo_yields {c : Chan} {s : State} {p : Place} (hp : (s.view c).place = some p)
    (hv : (s.view c).st ≠ .positioned) (hr : s.arb.request.get c = none) (hb : blocked s (peer c) = true) :
    let u := yieldTo c s
    u.view c = s.view c ∧ (u.view (peer c)).st ≠ .deferred ∧ entriesOf u c = []
      ∧ u.ilock.deferred.get c = s.ilock.deferred.get c ∧ u.arb.request.get c = none
      ∧ u.ev = (raiseFor c .interlockYield (placeAddr p.vol p.cyl) (entriesOf s c).length s).ev := by
  intro u
  have hu : u = removeChain c (raiseFor c .interlockYield (placeAddr p.vol p.cyl) (entriesOf s c).length s) := by
    simp only [u, yieldTo, hp, Option.getD_some]
  have hgrant := removeChain_mayGrant (c := c)
    (s := raiseFor c .interlockYield (placeAddr p.vol p.cyl) (entriesOf s c).length s) hv
  rw [← hu] at hgrant
  obtain ⟨hrecord, hev⟩ := hgrant.quiet hr
  refine ⟨hgrant.view_kept hr, ?_, ?_, hgrant.deferred, hrecord, hev⟩
  · rw [hu]
    exact removeChain_releases (s := raiseFor c _ _ _ s) hb
  · rw [hu, removeChain_entries]

/-- A request withdrawn leaves the views, but for the decision where a claim ends with it (R65, R91). -/
theorem withdrawRequest_mayGrant (c d : Chan) (s : State) :
    MayGrant d { s with arb := withoutRequest s c } (withdrawRequest c s) := by
  by_cases h : (∃ k, s.arb.st = .claimed c k) ∧ s.pos.held ≠ none
  · obtain ⟨⟨k, hk⟩, hheld⟩ := h
    obtain ⟨n, hn⟩ := Option.ne_none_iff_exists'.1 hheld
    rw [withdrawRequest_claim hk hn]
    exact claimEnd_mayGrant d c _ _
  · rw [withdrawRequest_record h]
    exact .kept rfl rfl rfl rfl

/-- The view that withdraws stays, without a record; nothing is recorded of it (R65). -/
theorem withdrawRequest_quiet (c : Chan) (s : State) :
    (withdrawRequest c s).view c = s.view c ∧ (withdrawRequest c s).arb.request.get c = none
      ∧ (withdrawRequest c s).ev = s.ev
      ∧ (withdrawRequest c s).ilock.deferred.get c = s.ilock.deferred.get c := by
  have hnone : ({ s with arb := withoutRequest s c } : State).arb.request.get c = none := by simp [withoutRequest]
  have hgrant := withdrawRequest_mayGrant c c s
  obtain ⟨hrecord, hev⟩ := hgrant.quiet hnone
  exact ⟨hgrant.view_kept hnone, hrecord, hev, hgrant.deferred⟩

theorem Decides.blocked {s t : State} (h : Decides s t) (c : Chan) : blocked t c = blocked s c := by
  have hplace : (t.view c).place = (s.view c).place := by rw [h.view c]; rfl
  unfold Machine.blocked heldBy
  rw [hplace, h.list]

/-- An occurrence of this flag with this detail and no other (R155, R156). -/
def OccursAlone (f : Flag) (n : Nat) (s t : State) : Prop :=
  OnlyRaises [f] s t ∧ (Open f s → Recorded f n t)

theorem occursAlone_raiseFor {s t u : State} {c : Chan} {e : ChanEvent} {p : PartAddr} {n : Nat} (h : t.ev = s.ev)
    (hu : u.ev = (raiseFor c e p n t).ev) : OccursAlone (.chan c e) n s u := by
  refine ⟨?_, fun hopen => ?_⟩
  · have hraises : OnlyRaises [.chan c e] s (raiseFor c e p n t) := raiseFor_onlyRaises c e p n h
    simpa only [OnlyRaises, hu] using hraises
  · have hrecorded : Recorded (.chan c e) n (raiseFor c e p n t) := raiseFor_records c e p h rfl hopen
    simpa only [Recorded, hu] using hrecorded

/-- A blocked view out of STANDBY or REQUESTING whose peer it blocks in DEFERRED: it is deferred without a record, its
chain goes with E21, and the peer is released (R123, R126). -/
theorem makeRequest_yields {c : Chan} {s : State} {t : Target} (ht : (s.view c).target = some t)
    (hv : (s.view c).st = .requesting ∨ (s.view c).st = .standby ∧ s.arb.request.get c = none)
    (hb : heldBy s (peer c) ⟨(s.view c).sel.vol, t.physical⟩ = true)
    (hpeer : (s.view (peer c)).st = .deferred) (hpb : blocked s (peer c) = true) :
    let u := makeRequest c s
    (u.view c).st = .deferred ∧ (u.view (peer c)).st ≠ .deferred ∧ entriesOf u c = []
      ∧ u.ilock.deferred.get c = some ⟨(s.view c).sel.vol, t.physical⟩ ∧ u.arb.request.get c = none
      ∧ OccursAlone (.chan c .interlockYield) (entriesOf s c).length s u := by
  have hyield : ∀ w, Decides (asDeferred c ⟨(s.view c).sel.vol, t.physical⟩ s) w →
      w.view c = (asDeferred c ⟨(s.view c).sel.vol, t.physical⟩ s).view c → w.arb.request.get c = none →
      w.ev = s.ev → w.ilock.deferred.get c = some ⟨(s.view c).sel.vol, t.physical⟩ →
      let u := yieldTo c w
      (u.view c).st = .deferred ∧ (u.view (peer c)).st ≠ .deferred ∧ entriesOf u c = []
        ∧ u.ilock.deferred.get c = some ⟨(s.view c).sel.vol, t.physical⟩ ∧ u.arb.request.get c = none
        ∧ OccursAlone (.chan c .interlockYield) (entriesOf s c).length s u := by
    intro w hw hview hrecord hev hdeferred u
    have hplace : (w.view c).place = some ⟨(s.view c).sel.vol, t.physical⟩ := by
      rw [hview, asDeferred_view]
      exact place_of_target (v := { s.view c with st := .deferred, wait := (s.view c).waitAtRequest }) ht
    have hentries : entriesOf w c = entriesOf s c := (hw.entriesOf c).trans (by cases c <;> rfl)
    have hblocks : blocked w (peer c) = true := (hw.blocked (peer c)).trans (Eq.trans (by cases c <;> rfl) hpb)
    obtain ⟨huview, hupeer, huentries, hudeferred, hurecord, huev⟩ :=
      yieldTo_yields hplace (by rw [hview]; simp) hrecord hblocks
    rw [hentries] at huev
    exact ⟨by rw [huview, hview]; simp, hupeer, huentries, hudeferred.trans hdeferred, hurecord,
      occursAlone_raiseFor hev huev⟩
  have hset : (asDeferred c ⟨(s.view c).sel.vol, t.physical⟩ s).ilock.deferred.get c =
      some ⟨(s.view c).sel.vol, t.physical⟩ := by cases c <;> rfl
  rcases hv with hv | ⟨hv, hr⟩
  · obtain ⟨hview, hrecord, hev, hdeferred⟩ :=
      withdrawRequest_quiet c (asDeferred c ⟨(s.view c).sel.vol, t.physical⟩ s)
    rw [makeRequest_withdraws ht hv hb, if_pos hpeer]
    exact hyield _ (withdrawRequest_decides c _) hview hrecord hev (hdeferred.trans hset)
  · rw [makeRequest_defers ht (by simp [hv]) hb, if_pos hpeer]
    exact hyield _ (.refl _) rfl hr rfl hset

end Sys2Proof.Machine
end

section
/-! A CYLINDER order that makes a request (R24, R65, R91, R123, R126): what the order has done once it is acknowledged, for
any view it has set. -/

namespace Sys2Proof.Machine

/-- The wait count with which a view that is not POSITIONED makes a request (R43). -/
def View.waitOut (v : View) : Nat := if v.st = .standby then 0 else v.wait

/-- The part in which a request of the view c waits at the arbiter (R65, R123). -/
def waiting (c : Chan) (p : Place) (s : State) : State :=
  { s with
    arb := { s.arb with request := s.arb.request.set c (some p) },
    ilock := { s.ilock with deferred := s.ilock.deferred.set c none } }

theorem withRequest_asRequesting (c : Chan) (p : Place) (s : State) :
    withRequest c (some p) (asRequesting c s) =
      setView c { s.view c with st := .requesting, wait := (s.view c).waitAtRequest } (waiting c p s) := by
  cases c <;> rfl

theorem withoutRequest_claimed {c x : Chan} {k : ClaimKind} {s : State} (h : s.arb.st = .claimed x k) :
    withoutRequest s c = { s.arb with request := s.arb.request.set c none } := by
  simp [withoutRequest, h]

/-- The end of a claim with no record left and no internal request leaves the arbiter FREE (R73, R80, R91). -/
theorem claimEnd_nobody {c : Chan} {s : State} (b : Bool) (hq : s.arb.queue = []) (hr : ∀ d, s.arb.request.get d = none) :
    let u := claimEnd c b s
    u.pos = { s.pos with held := none }
      ∧ u.arb = { s.arb with
          st := .free, awaited := none, stamp := none, clock := 0, releasePending := false,
          usage := if b then chargedUsage s.arb.usage c s.arb.held else s.arb.usage }
      ∧ TouchesOnly [.arb, .pos, .relay, .drive] s u := by
  intro u
  have hpart : ({ (if b then charge c s else s) with pos := { s.pos with held := none } } : State) =
      { s with
        arb := { s.arb with usage := if b then chargedUsage s.arb.usage c s.arb.held else s.arb.usage },
        pos := { s.pos with held := none } } := by
    cases b <;> rfl
  let w : State :=
    { s with
      arb := { s.arb with usage := if b then chargedUsage s.arb.usage c s.arb.held else s.arb.usage },
      pos := { s.pos with held := none } }
  have hend := headAtGrantEnd_touches c w
  have harb : (headAtGrantEnd c w).arb = w.arb := hend .arb (by decide)
  have hu : u = freed (headAtGrantEnd c w) := by
    simp only [u, claimEnd, hpart, toFree_eq]
    exact decideGrant_nobody (by simp only [freed]; rw [harb]; exact hq)
      (by simp only [freed]; rw [harb]; exact hr)
  refine ⟨?_, ?_, ?_⟩
  · rw [hu]; exact hend .pos (by decide)
  · rw [hu]; simp only [freed, harb]; rfl
  · rw [hu]
    exact (((touches_arb s w.arb).mono (by decide)).trans ((touches_pos _ w.pos).mono (by decide))).trans
      ((hend.mono (by decide)).trans ((freed_touches _).mono (by decide)))

section
variable {c : Chan} {s : State} {v : View} {t : Target}

/-- An order whose request waits at the arbiter. -/
theorem order_waits (ht : v.target = some t) (hv : v.st ≠ .positioned) (hi : v.idle = 0)
    (hb : heldBy s (peer c) ⟨v.sel.vol, t.physical⟩ = false)
    (hk : KeepsWaiting s c ∨ ((∃ k, s.arb.st = .claimed c k) ∧ s.pos.held = none)) :
    acknowledge c (makeRequest c (ordered c v s)) =
      orderDone c { v with st := .requesting, wait := v.waitOut } (waiting c ⟨v.sel.vol, t.physical⟩ s) := by
  have harrives : requestArrives c ⟨v.sel.vol, t.physical⟩ (asRequesting c (ordered c v s)) =
      withRequest c (some ⟨v.sel.vol, t.physical⟩) (asRequesting c (ordered c v s)) := by
    rcases hk with hk | ⟨⟨k, hk⟩, hheld⟩
    · exact requestArrives_keeps (by cases c <;> exact hk) _
    · exact requestArrives_claimed (k := k) (by exact hk) (by exact hheld) _
  rw [makeRequest_letThrough (t := t) (by simpa using ht) (by simpa using hb), ordered_view, harrives,
    withRequest_asRequesting, ordered_view, waitAtRequest_eq hv]
  exact acknowledge_ordered (v := v) hi

/-- An order of the claimant whose seek is held. -/
theorem order_retargets {k : ClaimKind} {n : Nat} (ht : v.target = some t) (hv : v.st ≠ .positioned) (hi : v.idle = 0)
    (hb : heldBy s (peer c) ⟨v.sel.vol, t.physical⟩ = false) (hk : s.arb.st = .claimed c k)
    (hh : s.pos.held = some n) :
    acknowledge c (makeRequest c (ordered c v s)) =
      let u := orderDone c { v with st := .requesting, wait := v.waitOut } (waiting c ⟨v.sel.vol, t.physical⟩ s)
      { u with arb := { u.arb with awaited := some t.physical }, pos := { s.pos with held := some t.physical } } := by
  rw [makeRequest_letThrough (t := t) (by simpa using ht) (by simpa using hb), ordered_view,
    requestArrives_retargets (k := k) (n := n) (by exact hk) (by exact hh)]
  have hdone := acknowledge_ordered (c := c) (v := v) (x := { v with st := .requesting, wait := v.waitOut })
    (s := { s with pos := { s.pos with held := some t.physical } })
    (a := { (waiting c ⟨v.sel.vol, t.physical⟩ s).arb with awaited := some t.physical })
    (i := (waiting c ⟨v.sel.vol, t.physical⟩ s).ilock) hi
  refine Eq.trans ?_ (hdone.trans ?_)
  · simp only [View.waitOut, ← waitAtRequest_eq hv]
    cases c <;> rfl
  · cases c <;> rfl

/-- An order whose request ends the grant of the peer. -/
theorem order_endsGrant (ht : v.target = some t) (hv : v.st ≠ .positioned) (hi : v.idle = 0)
    (hb : heldBy s (peer c) ⟨v.sel.vol, t.physical⟩ = false) (he : EndsGrantAtArrival s c) :
    let u := acknowledge c (makeRequest c (ordered c v s))
    u.view c = { v with st := (u.view c).st, wait := v.waitOut, idle := 0 }
      ∧ (u.view c).st ∈ [ViewState.requesting, .positioned] ∧ (u.port c).ack = true
      ∧ GrantPassed (peer c) ⟨v.sel.vol, t.physical⟩ s u
      ∧ TouchesOnly [.view .a, .view .b, .port c, .arb, .pos, .drive, .relay, .ilock] s u := by
  intro u
  have hmake := makeRequest_letThrough (c := c) (s := ordered c v s) (t := t) (by simpa using ht) (by simpa using hb)
  have hends : EndsGrantAtArrival (asRequesting c (ordered c v s)) c := by cases c <;> exact he
  obtain ⟨hpassed, htouch⟩ := requestArrives_ends_passed hends ⟨v.sel.vol, t.physical⟩
  have hview := (requestArrives_mayGrant (c := c) (s := asRequesting c (ordered c v s)) c ⟨v.sel.vol, t.physical⟩
    (by simp)).view
  rw [ordered_view] at hmake
  rw [← hmake] at hpassed htouch hview
  have hframe := acknowledge_ordered_touches (((asRequesting_touches c (ordered c v s)).mono
    (m := [.view .a, .view .b, .arb, .pos, .drive, .relay, .ilock]) (by cases c <;> decide)).trans
      (htouch.mono (by decide)))
  rw [withRequest_view, asRequesting_view, ordered_view, waitAtRequest_eq hv] at hview
  refine ⟨?_, ?_, acknowledge_ack c _, by cases c <;> exact hpassed, hframe.mono (by cases c <;> decide)⟩
  · have hu : u.view c = (makeRequest c (ordered c v s)).view c := acknowledge_view c c _
    rw [hu]
    rcases hview with h | ⟨-, h⟩ <;> rw [h]
    · simp only [View.waitOut, hi]
    · rfl
  · have hu : u.view c = (makeRequest c (ordered c v s)).view c := acknowledge_view c c _
    rw [hu]
    rcases hview with h | ⟨-, h⟩ <;> rw [h] <;> simp

/-- The part in which the request of the view c is deferred, its record withdrawn (R65, R123). -/
def deferring (c : Chan) (p : Place) (s : State) : State :=
  { s with
    arb := if (s.view c).st = .requesting then withoutRequest s c else s.arb,
    ilock := { s.ilock with deferred := s.ilock.deferred.set c (some p) } }

/-- An order whose request is deferred, the peer not DEFERRED. -/
theorem order_defers (ht : v.target = some t) (hst : v.st = (s.view c).st)
    (hv : (s.view c).st ∈ [ViewState.standby, .requesting, .deferred]) (hi : v.idle = 0)
    (hb : heldBy s (peer c) ⟨v.sel.vol, t.physical⟩ = true) (hp : (s.view (peer c)).st ≠ .deferred)
    (hn : ¬((∃ k, s.arb.st = .claimed c k) ∧ s.pos.held ≠ none)) :
    acknowledge c (makeRequest c (ordered c v s)) =
      orderDone c { v with st := .deferred, wait := v.waitOut } (deferring c ⟨v.sel.vol, t.physical⟩ s) := by
  have htarget : ((ordered c v s).view c).target = some t := by simpa using ht
  have hheld : heldBy (ordered c v s) (peer c) ⟨((ordered c v s).view c).sel.vol, t.physical⟩ = true := by simpa using hb
  have hpeer : ¬((ordered c v s).view (peer c)).st = .deferred := by simpa using hp
  have hwait : v.waitAtRequest = v.waitOut := waitAtRequest_eq (by rw [hst]; intro h; simp [h] at hv)
  have hdone := acknowledge_ordered (c := c) (v := v) (x := { v with st := .deferred, wait := v.waitOut }) (s := s)
    (a := (deferring c ⟨v.sel.vol, t.physical⟩ s).arb) (i := (deferring c ⟨v.sel.vol, t.physical⟩ s).ilock) hi
  refine Eq.trans ?_ hdone
  by_cases hr : (s.view c).st = .requesting
  · rw [makeRequest_withdraws htarget (by simpa [hst] using hr) hheld, if_neg hpeer, withdrawRequest_record (by exact hn),
      ordered_view]
    simp only [deferring, hr, if_true, ← hwait]
    cases c <;> rfl
  · have hkind : ((ordered c v s).view c).st ∈ [ViewState.standby, .deferred] := by
      simp only [List.mem_cons, List.not_mem_nil, or_false] at hv
      simp only [ordered_view, hst, List.mem_cons, List.not_mem_nil, or_false]
      tauto
    rw [makeRequest_defers htarget hkind hheld, if_neg hpeer, ordered_view]
    simp only [deferring, hr, if_false, ← hwait]
    cases c <;> rfl

/-- An order that defers the claimant, its seek held and nobody waiting: the claim ends (R65, R73, R80, R91). -/
theorem order_endsClaim {k : ClaimKind} {n : Nat} (ht : v.target = some t) (hr : v.st = .requesting) (hi : v.idle = 0)
    (hb : heldBy s (peer c) ⟨v.sel.vol, t.physical⟩ = true) (hp : (s.view (peer c)).st ≠ .deferred)
    (hk : s.arb.st = .claimed c k) (hh : s.pos.held = some n) (hw : ¬Waits s c) :
    let u := acknowledge c (makeRequest c (ordered c v s))
    u.view c = { v with st := .deferred, wait := v.waitOut, idle := 0 } ∧ (u.port c).ack = true
      ∧ u.ilock = { s.ilock with deferred := s.ilock.deferred.set c (some ⟨v.sel.vol, t.physical⟩) }
      ∧ u.pos = { s.pos with held := none }
      ∧ u.arb = { s.arb with
          st := .free, request := s.arb.request.set c none, awaited := none, stamp := none, clock := 0,
          releasePending := false,
          usage := if k = .continuing then chargedUsage s.arb.usage c s.arb.held else s.arb.usage }
      ∧ TouchesOnly [.view c, .port c, .arb, .pos, .drive, .relay, .ilock] s u := by
  intro u
  have htarget : ((ordered c v s).view c).target = some t := by simpa using ht
  have hheld : heldBy (ordered c v s) (peer c) ⟨((ordered c v s).view c).sel.vol, t.physical⟩ = true := by simpa using hb
  have hpeer : ¬((ordered c v s).view (peer c)).st = .deferred := by simpa using hp
  have hwait : v.waitAtRequest = v.waitOut := waitAtRequest_eq (by rw [hr]; decide)
  have hmake := makeRequest_withdraws htarget (by simpa using hr) hheld
  simp only [hpeer, if_false] at hmake
  rw [withdrawRequest_claim (k := k) (n := n) (by exact hk) (by exact hh), ordered_view] at hmake
  obtain ⟨hpeerNone, hqueue⟩ : s.arb.request.get (peer c) = none ∧ s.arb.queue = [] := by simpa [Waits] using hw
  have hwithout : withoutRequest (asDeferred c ⟨v.sel.vol, t.physical⟩ (ordered c v s)) c =
      { s.arb with request := s.arb.request.set c none } := withoutRequest_claimed (by exact hk)
  have hrecords : ∀ d, (s.arb.request.set c none).get d = none := fun d => by
    by_cases hd : d = c
    · simp [hd]
    · rw [eq_peer_of_ne hd]
      simpa using hpeerNone
  rw [hwithout] at hmake
  obtain ⟨hpos, harb, htouch⟩ := claimEnd_nobody (c := c) (s := { asDeferred c ⟨v.sel.vol, t.physical⟩ (ordered c v s)
    with arb := { s.arb with request := s.arb.request.set c none } }) (decide (k = .continuing)) hqueue hrecords
  rw [← hmake] at hpos harb htouch
  have hframe := acknowledge_ordered_touches (((asDeferred_touches c ⟨v.sel.vol, t.physical⟩ (ordered c v s)).mono
    (m := [.view c, .arb, .pos, .drive, .relay, .ilock]) (by cases c <;> decide)).trans
      (((touches_arb _ _).mono (by cases c <;> decide)).trans (htouch.mono (by cases c <;> decide))))
  refine ⟨?_, acknowledge_ack c _, Eq.trans (htouch .ilock (by decide)) (by cases c <;> rfl), hpos, ?_,
    hframe.mono (by cases c <;> decide)⟩
  · refine Eq.trans (Eq.trans (htouch (.view c) (by simp)) (asDeferred_view c _ _)) ?_
    rw [ordered_view, hwait, ← hi]
  · refine Eq.trans harb ?_
    simp only [decide_eq_true_eq]

end

/-! ## CYLINDER orders -/

theorem OnlyRaises.mono {l m : List Flag} {s t : State} (h : OnlyRaises l s t) (hl : l ⊆ m) : OnlyRaises m s t := by
  obtain ⟨hrecord, halarm, hflags⟩ := h
  exact ⟨hrecord, halarm, fun f hf => hflags f (hf.imp_left (mt (@hl f)))⟩

/-- Settles O12: a request of a view that is not POSITIONED, by whether an interlock holds its place and by the arbiter's
state. -/
theorem cylinderOrderMakesRequest : Obligations.CylinderOrderMakesRequest := by
  intro c value w s t h hv hm place v requests defers
  have hst : (s.view c).st ≠ .positioned ∧ (s.view c).st ≠ .transferring := by
    constructor <;> intro hs <;> simp [hs] at hv
  let x : View := { s.view c with target := some t, seekError := false, idle := 0 }
  have he : exec (.cylinderOrder c value w) s = .next (acknowledge c (makeRequest c (ordered c x s))) :=
    exec_cylinderOrder_mapped h (by simp at hv ⊢; tauto) hm (fun hs => hst.1 hs.1) w
  have both : ∀ {u}, acknowledge c (makeRequest c (ordered c x s)) = u →
      exec (.cylinderOrder c value w) s = .next u ∧ (value = 0#10 → exec (.recalibrate c) s = .next u) := fun hu =>
    ⟨hu ▸ he, hu ▸ exec_recalibrate_eq h hst.2 he⟩
  refine ⟨fun hb hk => both ?waits, fun n hb ⟨k, hk⟩ hh => both ?retargets, fun hb hends => ?endsGrant,
    fun hb hp hn => both ?defers, fun k n hb hp hr hk hh hw => ?endsClaim, fun hb hp hpb hr => ?yields⟩
  case waits => exact order_waits (v := x) rfl hst.1 rfl hb hk
  case retargets => exact order_retargets (v := x) rfl hst.1 rfl hb hk hh
  case endsGrant =>
    obtain ⟨hcyl, hrec⟩ := both rfl
    exact ⟨_, hcyl, hrec, order_endsGrant (v := x) rfl hst.1 rfl hb hends⟩
  case defers => exact order_defers (v := x) rfl rfl hv rfl hb hp hn
  case endsClaim =>
    obtain ⟨hcyl, hrec⟩ := both rfl
    exact ⟨_, hcyl, hrec, order_endsClaim (v := x) rfl hr rfl hb hp hk hh hw⟩
  case yields =>
    obtain ⟨hcyl, hrec⟩ := both rfl
    have hyields := makeRequest_yields (c := c) (s := ordered c x s) (t := t) (by simp [x])
      (by rw [ordered_view]; exact hr) (by simpa [x] using hb) (by simpa using hp) (by cases c <;> exact hpb)
    rw [ordered_view] at hyields
    obtain ⟨hview, hpeer, hentries, hdeferred, hrecord, hraises, hrecords⟩ := hyields
    have hsame : entriesOf (ordered c x s) c = entriesOf s c := by cases c <;> rfl
    rw [hsame] at hrecords
    exact ⟨_, hcyl, hrec, hview, hpeer, hentries, hdeferred, hrecord,
      (acknowledge_ordered_touches (makeRequest_moves c _).frame).mono (by cases c <;> decide),
      OnlyRaises.mono (l := [.chan c .interlockYield]) hraises (by simp), hrecords⟩

end Sys2Proof.Machine
end

section
/-! FAULT CLEAR, and a gate at a view without position (R27, R34): the chain a FAULT CLEAR removes, and the request a gate in
STANDBY makes. -/

namespace Sys2Proof.Machine

/-! ## FAULT CLEAR -/

theorem leaveFaulted_usable {c : Chan} {s : State} (h : usable s = true) :
    leaveFaulted c s = setView c { s.view c with st := .standby, fault := .none, seekError := false } s := by
  simp [leaveFaulted, h]

theorem leaveFaulted_unusable {c : Chan} {s : State} (h : usable s = false) :
    leaveFaulted c s =
      removeChain c (setView c { s.view c with st := .notReady, fault := .none, seekError := false } s) := by
  simp [leaveFaulted, h]

theorem faultClearEffect_faulted {c : Chan} {s : State} (h : (s.view c).st = .faulted) :
    faultClearEffect c s = leaveFaulted c s := if_pos h

theorem faultClearEffect_clear {c : Chan} {s : State} (h : (s.view c).st ≠ .faulted) :
    faultClearEffect c s = setView c { s.view c with seekError := false } s := if_neg h

/-- Settles O17: orders in FAULTED, then FAULT CLEAR by the view and by whether the drive is usable. -/
theorem faultedUntilFaultClear : Obligations.FaultedUntilFaultClear := by
  intro c value bus w s h
  have he := exec_faultClear h
  refine ⟨fun hf i hi => exec_faulted h hf hi, fun hf hu => ?usable, fun hf hu hr => ?unusable, fun hf => ?other⟩
  case usable =>
    rw [he, faultClearEffect_faulted (by simpa using hf), leaveFaulted_usable (by exact hu)]
    cases c <;> rfl
  case unusable =>
    rw [faultClearEffect_faulted (by simpa using hf), leaveFaulted_unusable (by exact hu), strobed_view] at he
    let v : View := { s.view c with st := .notReady, fault := .none, seekError := false, idle := 0 }
    have hview : (removeChain c (ordered c v s)).view c = v :=
      ((removeChain_mayGrant (s := ordered c v s) (by simp [v])).view_kept hr).trans (ordered_view c v s)
    exact ⟨_, he, hview, acknowledge_ack c _, removeChain_entries c _,
      (acknowledge_ordered_touches (v := v) (removeChain_moves c _).frame).mono (by cases c <;> decide)⟩
  case other =>
    rw [he, faultClearEffect_clear (by simpa using hf)]
    cases c <;> rfl

/-! ## Gates without position -/

theorem raiseNoPosition_eq (c : Chan) (line : GateLine) (s : State) :
    raiseNoPosition c line s =
      raiseFor c .gateWithoutPosition .absent ((s.view c).st.code * 2 ^ 13 + if line = .read then 0 else 1) s := by
  cases line <;> rfl

/-- The gate of the relay, and the gates at the drive port, are as they were. -/
def GateKept (s t : State) : Prop :=
  t.relay.gate = s.relay.gate ∧ t.drive.readGate = s.drive.readGate ∧ t.drive.writeGate = s.drive.writeGate

theorem Decides.gateKept {s t : State} (h : Decides s t) : GateKept s t :=
  ⟨h.gate, by rw [h.drive], by rw [h.drive]⟩

/-- A chain removed is a step of the arbiter's once its entries are gone (R125). -/
theorem removeChain_decides (c : Chan) (s : State) : Decides (withoutChain c s) (removeChain c s) := by
  rw [removeChain_eq]
  split
  · exact .refl _
  · exact releaseTest_decides (peer c) _

/-- A view that yields stays, but for a grant (R126). -/
theorem yieldTo_view {c : Chan} {s : State} (hv : (s.view c).st ≠ .positioned) :
    (yieldTo c s).view c = s.view c ∨ (yieldTo c s).view c = { s.view c with st := .positioned, idle := 0 } :=
  (removeChain_mayGrant (s := raiseFor c .interlockYield _ (entriesOf s c).length s) hv).view.imp_right And.right

theorem yieldTo_gateKept (c : Chan) (s : State) : GateKept s (yieldTo c s) :=
  (removeChain_decides c (raiseFor c .interlockYield _ (entriesOf s c).length s)).gateKept

/-- A view in STANDBY that makes a request is first REQUESTING or DEFERRED, and stays so but for a grant (R23, R123). -/
theorem makeRequest_standby_view {c : Chan} {s : State} {t : Target} (ht : (s.view c).target = some t)
    (hv : (s.view c).st = .standby) :
    ∃ v : View, v.target = some t ∧ v.wait = 0 ∧ v.st ∈ [ViewState.requesting, .deferred]
      ∧ ((makeRequest c s).view c = v ∨ (makeRequest c s).view c = { v with st := .positioned, idle := 0 })
      ∧ GateKept s (makeRequest c s) := by
  have hwait : (s.view c).waitAtRequest = 0 := by simp [View.waitAtRequest, hv]
  cases hb : heldBy s (peer c) ⟨(s.view c).sel.vol, t.physical⟩ with
  | false =>
    rw [makeRequest_letThrough ht hb]
    refine ⟨(asRequesting c s).view c, by simpa using ht, by simpa using hwait, by simp, ?_,
      (requestArrives_decides c ⟨(s.view c).sel.vol, t.physical⟩ (asRequesting c s)).gateKept⟩
    exact (requestArrives_mayGrant (s := asRequesting c s) c _ (by simp)).view.imp_right And.right
  | true =>
    rw [makeRequest_defers ht (by simp [hv]) hb]
    refine ⟨(asDeferred c ⟨(s.view c).sel.vol, t.physical⟩ s).view c, by simpa using ht, by simpa using hwait, by simp, ?_⟩
    by_cases hp : (s.view (peer c)).st = .deferred
    · simp only [hp, if_true]
      exact ⟨yieldTo_view (by simp), yieldTo_gateKept c (asDeferred c _ s)⟩
    · simp only [hp, if_false]
      exact ⟨.inl trivial, rfl, rfl, rfl⟩

/-- The part in which a gate without position is recorded (R34). -/
def recorded (c : Chan) (line : GateLine) (s : State) : State := raiseNoPosition c line (risen c line s)

theorem gateEffect_unusable {c : Chan} {s : State} (h : (s.view c).st = .notReady ∨ (s.view c).st = .faulted)
    (line : GateLine) (us : Nat) : gateEffect c line us s = s := by
  rcases h with h | h <;> simp [gateEffect, h]

/-- A gate in STANDBY with a target makes a request for it (R34). -/
theorem exec_gateArrival_standby {c : Chan} {line : GateLine} {us : Nat} {s : State} {t : Target}
    (hr : (s.port c).readGate = false) (hw : (s.port c).writeGate = false) (hv : (s.view c).st = .standby)
    (ht : (s.view c).target = some t) :
    exec (.gateArrival c line us) s = .next (makeRequest c (recorded c line s)) := by
  rw [exec_gateArrival_risen hr hw (by simp [hv])]
  simp [gateEffect, hv, ht, recorded]

/-- A gate at a view without position and, in STANDBY, without target is recorded alone (R34). -/
theorem exec_gateArrival_recorded {c : Chan} {line : GateLine} {us : Nat} {s : State}
    (hr : (s.port c).readGate = false) (hw : (s.port c).writeGate = false)
    (hv : (s.view c).st = .requesting ∨ (s.view c).st = .deferred
      ∨ ((s.view c).st = .standby ∧ (s.view c).target = none)) :
    exec (.gateArrival c line us) s = .next (recorded c line s) := by
  rcases hv with hv | hv | ⟨hv, ht⟩
  · rw [exec_gateArrival_risen hr hw (by simp [hv])]
    simp [gateEffect, hv, recorded]
  · rw [exec_gateArrival_risen hr hw (by simp [hv])]
    simp [gateEffect, hv, recorded]
  · rw [exec_gateArrival_risen hr hw (by simp [hv])]
    simp [gateEffect, hv, ht, recorded]

theorem recorded_alone (c : Chan) (line : GateLine) (s : State) :
    OccursAlone (.chan c .gateWithoutPosition)
      ((s.view c).st.code * 2 ^ 13 + if line = .read then 0 else 1) s (recorded c line s) := by
  have hst : ((risen c line s).view c).st = (s.view c).st := by simp
  exact occursAlone_raiseFor (t := risen c line s) (p := .absent) rfl (by rw [recorded, raiseNoPosition_eq, hst])

@[simp] theorem recorded_view (c : Chan) (line : GateLine) (s : State) :
    (recorded c line s).view c = { s.view c with idle := 0 } := by
  rw [← risen_view c line s]
  rfl

theorem recorded_port (c : Chan) (line : GateLine) (s : State) :
    (recorded c line s).port c = (s.port c).begun line := by cases c <;> rfl

theorem heldBy_recorded (c d : Chan) (line : GateLine) (s : State) (p : Place) :
    heldBy (recorded c line s) d p = heldBy s d p := by cases c <;> rfl

theorem recorded_touches (c : Chan) (line : GateLine) (s : State) :
    TouchesOnly [.view c, .port c, .ev] s (recorded c line s) :=
  (((touches_view c _ s).mono (by cases c <;> decide)).trans ((touches_port c _ _).mono (by cases c <;> decide))).trans
    ((touches_ev (risen c line s) _).mono (by cases c <;> decide))

/-- Settles O22: by the lines of the port and the state of the view. -/
theorem gateWithoutPosition : Obligations.GateWithoutPosition := by
  intro c line us s low p detail
  refine ⟨fun h => exec_gateArrival_high h line us, fun ⟨hr, hw⟩ hd => ?detached, fun ⟨hr, hw⟩ hv => ?unusable,
    fun ⟨hr, hw⟩ hv => ?records, fun t ⟨hr, hw⟩ hv ht => ?requests⟩
  case detached =>
    rw [exec_gateArrival_low hr hw]
    simp [gateEffect, idleToZero, hd]
    rfl
  case unusable =>
    rcases hv with hv | hv
    · rw [exec_gateArrival_risen hr hw (by simp [hv]), gateEffect_unusable (.inl (by simpa using hv))]
      rfl
    · rw [exec_gateArrival_risen hr hw (by simp [hv]), gateEffect_unusable (.inr (by simpa using hv))]
      rfl
  case records =>
    obtain ⟨hraises, hrecords⟩ := recorded_alone c line s
    exact ⟨_, exec_gateArrival_recorded hr hw hv, rfl, hraises, hrecords⟩
  case requests =>
    intro place
    have htarget : ((recorded c line s).view c).target = some t := by simpa using ht
    have hstandby : ((recorded c line s).view c).st = .standby := by simpa using hv
    have hplace : (⟨((recorded c line s).view c).sel.vol, t.physical⟩ : Place) = place := by simp [place]
    have hwait : ({ s.view c with idle := 0 } : View).waitAtRequest = 0 := by simp [View.waitAtRequest, hv]
    have hmoves := makeRequest_moves c (recorded c line s)
    obtain ⟨v, hvt, hvw, hvs, hview, hgate, hread, hwrite⟩ := makeRequest_standby_view htarget hstandby
    refine ⟨_, exec_gateArrival_standby hr hw hv ht, ?port, ?gate, ?read, ?write, ?target, ?state, ?wait, ?frame, ?record,
      fun hb hk => ?waits, fun hb he => ?ends, fun hb hp => ?defers⟩
    case port => exact Eq.trans (hmoves.frame (.port c) (by cases c <;> decide)) (recorded_port c line s)
    case gate => exact hgate.trans rfl
    case read => exact hread.trans rfl
    case write => exact hwrite.trans rfl
    case target => rcases hview with h | h <;> rw [h] <;> exact hvt
    case state => rcases hview with h | h <;> rw [h] <;> simp at hvs ⊢; tauto
    case wait => rcases hview with h | h <;> rw [h] <;> exact hvw
    case frame =>
      exact ((recorded_touches c line s).mono (by cases c <;> decide)).trans (hmoves.frame.mono (by cases c <;> decide))
    case record => exact fun hopen => ((recorded_alone c line s).2 hopen).keep hmoves.events
    case waits =>
      have hkeeps : KeepsWaiting (asRequesting c (recorded c line s)) c := by cases c <;> exact hk
      rw [makeRequest_letThrough htarget (by rw [heldBy_recorded, hplace]; exact hb), hplace, requestArrives_keeps hkeeps,
        withRequest_asRequesting, recorded_view, hwait]
      cases c <;> rfl
    case ends =>
      have hends : EndsGrantAtArrival (asRequesting c (recorded c line s)) c := by cases c <;> exact he
      rw [makeRequest_letThrough htarget (by rw [heldBy_recorded, hplace]; exact hb), hplace]
      have hpassed := (requestArrives_ends_passed hends place).1
      cases c <;> exact hpassed
    case defers =>
      have hpeer : ¬((recorded c line s).view (peer c)).st = .deferred := by cases c <;> exact hp
      rw [makeRequest_defers htarget (by rw [hstandby]; decide) (by rw [heldBy_recorded, hplace]; exact hb), hplace]
      simp only [hpeer, if_false, asDeferred, recorded_view, hwait]
      cases c <;> rfl

end Sys2Proof.Machine
end

section
/-! HEAD orders (R25, R65, R104): the selection taken, the target translated again where the volume changes. -/

namespace Sys2Proof.Machine

/-! ## The selection taken -/

/-- The view with which a HEAD order is taken, its idle count 0 (R25, R44). -/
def headTaken (c : Chan) (bus : BitVec 10) (s : State) : View := { (s.view c).select (headSel bus) with idle := 0 }

theorem exec_headOrder_takes {c : Chan} {s : State} (h : TakesOrders s c)
    (hv : (s.view c).st ∈ [ViewState.notReady, .standby, .requesting, .deferred, .positioned]) (bus : BitVec 10)
    (w : Carried) :
    exec (.headOrder c bus w) s = .next (acknowledge c (takeHead c (headSel bus) (strobed c s))) := by
  have htransfer : (s.view c).st ≠ .transferring := by
    intro hs
    simp [hs] at hv
  have heffect : headEffect c (headSel bus) w (strobed c s) = takeHead c (headSel bus) (strobed c s) := by
    simp only [List.mem_cons, List.not_mem_nil, or_false] at hv
    unfold headEffect
    rcases hv with hv | hv | hv | hv | hv <;> simp only [strobed_view, hv]
  rw [exec_headOrder h htransfer, heffect]

theorem takeHead_stays {c : Chan} {sel : Sel} {s : State}
    (h : sel.vol = (s.view c).sel.vol ∨ (s.view c).target = none) :
    takeHead c sel s = headStays c (setView c ((s.view c).select sel) s) := by
  unfold takeHead
  simp only
  split
  · rfl
  · rename_i hvol
    rw [h.resolve_left hvol]

theorem takeHead_translates {c : Chan} {sel : Sel} {s : State} {t : Target} (ht : (s.view c).target = some t)
    (hvol : sel.vol ≠ (s.view c).sel.vol) :
    takeHead c sel s = headTranslates c t (setView c ((s.view c).select sel) s) := by
  unfold takeHead
  simp only
  rw [if_neg hvol]
  split
  · rename_i hn
    simp [hn] at ht
  · rename_i x hx
    rw [Option.some.inj (hx.symm.trans ht)]

/-- A HEAD order that keeps the volume, or finds no target (R25). -/
theorem exec_headOrder_stays {c : Chan} {s : State} {bus : BitVec 10} (h : TakesOrders s c)
    (hv : (s.view c).st ∈ [ViewState.notReady, .standby, .requesting, .deferred, .positioned])
    (hs : (headSel bus).vol = (s.view c).sel.vol ∨ (s.view c).target = none) (w : Carried) :
    exec (.headOrder c bus w) s = .next (acknowledge c (headStays c (ordered c (headTaken c bus s) s))) := by
  rw [exec_headOrder_takes h hv, takeHead_stays (by simpa using hs), strobed_view]
  rfl

/-- A HEAD order that changes the volume under a target (R25). -/
theorem exec_headOrder_translates {c : Chan} {s : State} {bus : BitVec 10} {t : Target} (h : TakesOrders s c)
    (hv : (s.view c).st ∈ [ViewState.notReady, .standby, .requesting, .deferred, .positioned])
    (ht : (s.view c).target = some t) (hvol : (headSel bus).vol ≠ (s.view c).sel.vol) (w : Carried) :
    exec (.headOrder c bus w) s = .next (acknowledge c (headTranslates c t (ordered c (headTaken c bus s) s))) := by
  rw [exec_headOrder_takes h hv, takeHead_translates (t := t) (by simpa using ht) (by simpa using hvol), strobed_view]
  rfl

theorem acknowledge_of_ordered {c : Chan} {v : View} {s : State} (hi : v.idle = 0) :
    acknowledge c (ordered c v s) = orderDone c v s := acknowledge_strobed hi

/-! ## The selection sent on -/

theorem headStays_positioned {c : Chan} {s : State} (h : (s.view c).st = .positioned) :
    headStays c s = headAtOrder c s := if_pos h

theorem headStays_other {c : Chan} {s : State} (h : (s.view c).st ≠ .positioned) : headStays c s = s := if_neg h

/-- With no selection pending, a HEAD order asks for one where the last one ordered is another (R104). -/
theorem headAtOrder_free {c : Chan} {s : State} (h : s.relay.headPending = none) :
    headAtOrder c s = if s.pos.lastSel = some (s.view c).sel then s else askHead c s := by
  simp [headAtOrder, h]

/-- What a HEAD order sent on from a POSITIONED view has done (R25, R104). -/
theorem order_headAtOrder {c : Chan} {s : State} {v : View} (hv : v.st = .positioned) :
    let u := acknowledge c (headStays c (ordered c v s))
    u.view c = v ∧ (u.port c).ack = true ∧ TouchesOnly [.view c, .port c, .relay, .drive] s u
      ∧ (s.relay.headPending = none → s.pos.lastSel = some v.sel → u.relay = s.relay ∧ u.drive = s.drive)
      ∧ (s.relay.headPending = none → s.pos.lastSel ≠ some v.sel →
          u.relay = { s.relay with headPending := some v.sel } ∧ OrderAsked (.head v.sel (.relay c)) u) := by
  have htouch := headAtOrder_touches c (ordered c v s)
  rw [headStays_positioned (by simpa using hv)]
  refine ⟨Eq.trans (htouch (.view c) (by simp)) (ordered_view c v s), acknowledge_ack c _,
    (acknowledge_ordered_touches htouch).mono (by cases c <;> decide), fun hp hs => ?_, fun hp hs => ?_⟩
  · rw [headAtOrder_free (by exact hp), if_pos (by rw [ordered_view]; exact hs)]
    exact ⟨rfl, rfl⟩
  · have hasked := askHead_asked c (ordered c v s)
    rw [headAtOrder_free (by exact hp), if_neg (by rw [ordered_view]; exact hs)]
    rw [ordered_view] at hasked
    exact hasked

/-! ## A translation that fails -/

/-- A grant given up leaves the views, but for the decision (R75, R80). -/
theorem grantEnd_giveUp_mayGrant (c x : Chan) (s : State) : MayGrant c s (grantEnd x .giveUp s) := by
  have hend := headAtGrantEnd_touches x (charge x s)
  have harb : (headAtGrantEnd x (charge x s)).arb = (charge x s).arb := hend .arb (by decide)
  have hilock : (headAtGrantEnd x (charge x s)).ilock = s.ilock := hend .ilock (by decide)
  have hgrantEnd : grantEnd x .giveUp s = decideGrant (freed (headAtGrantEnd x (charge x s))) := rfl
  rw [hgrantEnd]
  refine (decideGrant_mayGrant c _).after (hend (.view c) (by simp)) ?_ (hend .ev (by decide)) ?_
  · simp only [freed, harb]
    rfl
  · simp only [freed, hilock]

/-- A view that has left a state for STANDBY leaves what it had at the arbiter and the Interlock Unit (R23, R75). -/
theorem leave_quiet {c : Chan} {old : ViewState} {s : State}
    (hold : old ∈ [ViewState.standby, .requesting, .deferred, .positioned])
    (hr : old ≠ .requesting → s.arb.request.get c = none)
    (hp : ¬(s.arb.st = .owned c ∧ s.arb.releasePending = true)) :
    let u := leave c old s
    u.view c = s.view c ∧ u.arb.request.get c = none ∧ u.ev = s.ev
      ∧ (old = .deferred → u.ilock.deferred.get c = none) ∧ (old = .standby → u = s) := by
  simp only [List.mem_cons, List.not_mem_nil, or_false] at hold
  rcases hold with rfl | rfl | rfl | rfl
  · exact ⟨rfl, hr (by decide), rfl, nofun, fun _ => rfl⟩
  · obtain ⟨hview, hrecord, hev, -⟩ := withdrawRequest_quiet c s
    exact ⟨hview, hrecord, hev, nofun, nofun⟩
  · refine ⟨rfl, hr (by decide), rfl, fun _ => ?_, nofun⟩
    simp [leave, setDeferred]
  · have hrecord := hr (by decide)
    simp only [leave, giveUp]
    by_cases hown : s.arb.st = .owned c
    · have hpending : s.arb.releasePending = false := by simpa [hown] using hp
      have hgrant := grantEnd_giveUp_mayGrant c c s
      obtain ⟨hnone, hev⟩ := hgrant.quiet hrecord
      rw [if_pos hown, hpending]
      exact ⟨hgrant.view_kept hrecord, hnone, hev, nofun, nofun⟩
    · rw [if_neg hown]
      exact ⟨rfl, hrecord, rfl, nofun, nofun⟩

/-- The view at a failed translation: in STANDBY without a target, SEEK ERROR (R22). -/
def View.failed (v : View) : View := { v.seekFailed with st := .standby }

theorem standbySeekError_quiet {c : Chan} {s : State}
    (hv : (s.view c).st ∈ [ViewState.standby, .requesting, .deferred, .positioned])
    (hr : (s.view c).st ≠ .requesting → s.arb.request.get c = none)
    (hp : ¬(s.arb.st = .owned c ∧ s.arb.releasePending = true)) :
    let u := standbySeekError c s
    u.view c = (s.view c).failed ∧ u.arb.request.get c = none ∧ u.ev = s.ev
      ∧ ((s.view c).st = .deferred → u.ilock.deferred.get c = none)
      ∧ ((s.view c).st = .standby → u = setView c (s.view c).failed s) := by
  obtain ⟨hview, hrecord, hev, hdeferred, hstandby⟩ :=
    leave_quiet (c := c) (s := setView c (s.view c).failed s) hv hr hp
  exact ⟨hview.trans (setView_view_self c _ s), hrecord, hev, hdeferred, hstandby⟩

/-- When the translation of a target fails, with E1 where the volume is usable (R22, R45). -/
theorem headTranslates_fails {c : Chan} {s : State} {t : Target} (hst : (s.view c).st ≠ .notReady)
    (h : usableVol s (s.view c).sel.vol = false ∨ Unmapped s c (s.view c).sel.vol t.logical) :
    headTranslates c t s =
      standbySeekError c (if usableVol s (s.view c).sel.vol = true then raiseUnmapped c t.logical s else s) := by
  rcases h with h | h
  · simp only [headTranslates, translate_unusable h, hst, if_false, h, Bool.false_eq_true]
  · have hu : usableVol s (s.view c).sel.vol = true := h.1
    simp only [headTranslates, translate_unmapped h, hu, if_true]

/-- A HEAD order whose target does not translate, out of a state in which the view could have it (R22, R25, R75). -/
theorem order_fails {c : Chan} {s : State} {v : View} {t : Target}
    (hv : v.st ∈ [ViewState.standby, .requesting, .deferred, .positioned])
    (hr : v.st ≠ .requesting → s.arb.request.get c = none)
    (hp : ¬(s.arb.st = .owned c ∧ s.arb.releasePending = true))
    (h : usableVol s v.sel.vol = false ∨ Unmapped s c v.sel.vol t.logical) :
    let u := acknowledge c (headTranslates c t (ordered c v s))
    u.view c = v.failed ∧ (u.port c).ack = true ∧ u.arb.request.get c = none
      ∧ (v.st = .deferred → u.ilock.deferred.get c = none)
      ∧ (v.st = .standby → TouchesOnly [.view c, .port c, .ev] s u)
      ∧ TouchesOnly (.port c :: Part.reached) s u ∧ OnlyRaises [.chan c .unmappedSeek] s u
      ∧ (usableVol s v.sel.vol = false → u.ev = s.ev)
      ∧ (usableVol s v.sel.vol = true → Open (.chan c .unmappedSeek) s →
          Recorded (.chan c .unmappedSeek) (volBit v.sel.vol * 2 ^ 15 + t.logical) u) := by
  intro u
  have hst : v.st ≠ .notReady := by
    intro hn
    simp [hn] at hv
  have husable : usableVol (ordered c v s) v.sel.vol = usableVol s v.sel.vol := rfl
  have hfails := headTranslates_fails (c := c) (s := ordered c v s) (t := t) (by simpa using hst)
    (by rw [ordered_view]; exact h)
  rw [ordered_view, husable] at hfails
  let y := if usableVol s v.sel.vol = true then raiseUnmapped c t.logical (ordered c v s) else ordered c v s
  have hy : y.view c = v := by
    simp only [y]
    split <;> exact ordered_view c v s
  have harb : y.arb = s.arb := by
    simp only [y]
    split <;> rfl
  have htouch : TouchesOnly [.ev] (ordered c v s) y := by
    simp only [y]
    split
    · exact touches_ev _ _
    · exact .refl _ _
  obtain ⟨hview, hrecord, hev, hdeferred, hstandby⟩ := standbySeekError_quiet (c := c) (s := y) (by rw [hy]; exact hv)
    (by rw [hy, harb]; exact hr) (by rw [harb]; exact hp)
  rw [hy] at hview hdeferred hstandby
  have hframe : TouchesOnly Part.reached (ordered c v s) (headTranslates c t (ordered c v s)) := by
    rw [hfails]
    exact (htouch.mono (by decide)).trans (standbySeekError_moves c y).frame
  have huev : u.ev = y.ev := by
    simp only [u, hfails]
    exact hev
  have halone : usableVol s v.sel.vol = true →
      OccursAlone (.chan c .unmappedSeek) (volBit v.sel.vol * 2 ^ 15 + t.logical) s u := by
    intro hu
    have hraise : y = raiseFor c .unmappedSeek .absent (volBit v.sel.vol * 2 ^ 15 + t.logical) (ordered c v s) := by
      simp only [y, hu, if_true, raiseUnmapped, ordered_view, detailE1]
    exact occursAlone_raiseFor (t := ordered c v s) rfl (huev.trans (congrArg State.ev hraise))
  have hquiet : usableVol s v.sel.vol = false → u.ev = s.ev := by
    intro hu
    rw [huev]
    simp only [y, hu, Bool.false_eq_true, if_false]
    rfl
  refine ⟨?_, acknowledge_ack c _, ?_, ?_, ?_, (acknowledge_ordered_touches hframe).mono (by cases c <;> decide), ?_, hquiet,
    fun hu hopen => (halone hu).2 hopen⟩
  · simp only [u, acknowledge_view, hfails]
    exact hview
  · simp only [u, hfails]
    exact hrecord
  · simp only [u, hfails]
    exact hdeferred
  · intro hs
    have hu : u = acknowledge c (setView c v.failed y) := by
      simp only [u, hfails]
      exact congrArg (acknowledge c) (hstandby hs)
    rw [hu]
    exact (acknowledge_ordered_touches (htouch.mono (m := [.ev, .view c]) (by simp) |>.trans
      ((touches_view c _ y).mono (by simp)))).mono (by cases c <;> decide)
  · cases hu : usableVol s v.sel.vol with
    | true => exact (halone hu).1
    | false =>
      rw [OnlyRaises, hquiet hu]
      exact ⟨rfl, rfl, fun _ _ => rfl⟩

/-! ## A translation to the same cylinder -/

theorem headTranslates_mapped {c : Chan} {s : State} {t t' : Target} (h : Maps s c (s.view c).sel.vol t.logical t') :
    headTranslates c t s =
      if t'.physical = t.physical then headStays c (keepRequest c (setTarget c t' s))
      else if (s.view c).st = .notReady then setTarget c t' s
      else makeRequest c (setTarget c t' s) := by
  simp only [headTranslates, translate_mapped h]

theorem setTarget_ordered (c : Chan) (v : View) (t : Target) (s : State) :
    setTarget c t (ordered c v s) = ordered c { v with target := some t } s := by
  simp [setTarget, ordered]

/-- A request kept by a HEAD order takes the new volume at the arbiter (R65; log 14). -/
theorem order_keepsRequest {c : Chan} {s : State} {v : View} {t : Target} (ht : v.target = some t)
    (hv : v.st = .requesting) (hi : v.idle = 0) :
    acknowledge c (headStays c (keepRequest c (ordered c v s))) =
      orderDone c v { s with arb := { s.arb with request := s.arb.request.set c (some ⟨v.sel.vol, t.physical⟩) } } := by
  have hkeep : keepRequest c (ordered c v s) = ordered c v
      { s with arb := { s.arb with request := s.arb.request.set c (some ⟨v.sel.vol, t.physical⟩) } } := by
    simp only [keepRequest, ordered_view, hv, if_true, place_of_target ht]
    cases c <;> rfl
  rw [hkeep, headStays_other (by simp [hv]), acknowledge_of_ordered hi]

theorem keepRequest_other {c : Chan} {s : State} (h : (s.view c).st ≠ .requesting) : keepRequest c s = s := if_neg h

theorem KeepsWaiting.no_claim {s : State} {c : Chan} (h : KeepsWaiting s c) : ¬∃ k, s.arb.st = .claimed c k := by
  rintro ⟨k, hk⟩
  rcases h with h | h | ⟨x, h⟩ | ⟨h, -⟩ <;> rw [hk] at h
  · exact nomatch h
  · exact nomatch h
  · exact ne_peer c (ArbState.claimed.inj h).1
  · exact nomatch h

/-- Settles O16: by whether the target is translated again, and by the cylinder it gives. -/
theorem headOrderTakesSelection : Obligations.HeadOrderTakesSelection := by
  intro c bus w s h v failed
  have hidle : (headTaken c bus s).idle = 0 := rfl
  have htaken : ∀ l, l ⊆ [ViewState.notReady, .standby, .requesting, .deferred, .positioned] → (s.view c).st ∈ l →
      (s.view c).st ∈ [ViewState.notReady, .standby, .requesting, .deferred, .positioned] := fun _ hl hv => hl hv
  refine ⟨fun hs => ⟨fun hv => ?sets, fun hv hpend => ?sent⟩, fun t ht hvol => ⟨fun hv hu => ?notReady,
    fun hv hr hp hn => ?fails, fun t' hm hcyl => ?same, fun t' hm hcyl => ?other⟩⟩
  case sets =>
    have hst : ((ordered c (headTaken c bus s) s).view c).st ≠ .positioned := by
      rw [ordered_view]
      intro hn
      simp [show (s.view c).st = .positioned from hn] at hv
    rw [exec_headOrder_stays h (htaken _ (by decide) hv) hs, headStays_other hst, acknowledge_of_ordered hidle]
    rfl
  case sent =>
    have he := exec_headOrder_stays h (by simp [hv]) hs w
    obtain ⟨hview, hack, htouch, hsame, hasked⟩ := order_headAtOrder (c := c) (s := s) (v := headTaken c bus s) hv
    exact ⟨_, he, hview, hack, htouch, hsame hpend, hasked hpend⟩
  case notReady =>
    have htranslate : headTranslates c t (ordered c (headTaken c bus s) s) =
        setView c (headTaken c bus s).seekFailed (ordered c (headTaken c bus s) s) := by
      have hunusable := translate_unusable (s := ordered c (headTaken c bus s) s) hu c t.logical
      have hst : (headTaken c bus s).st = .notReady := hv
      simp only [headTranslates, ordered_view, hst, if_true]
      rw [show (headTaken c bus s).sel.vol = (headSel bus).vol from rfl, hunusable]
    rw [exec_headOrder_translates h (by simp [hv]) ht hvol, htranslate]
    cases c <;> rfl
  case fails =>
    have he := exec_headOrder_translates h (htaken _ (by decide) hv) ht hvol w
    exact ⟨_, he, order_fails (v := headTaken c bus s) hv hr hp hn⟩
  case same =>
    have hmapped := headTranslates_mapped (c := c) (s := ordered c (headTaken c bus s) s) (t := t) (t' := t')
      (by rw [ordered_view]; exact hm)
    rw [if_pos hcyl, setTarget_ordered] at hmapped
    let x : View := { headTaken c bus s with target := some t' }
    refine ⟨fun hv => ?keeps, fun hv => ?records, fun hv => ?sends⟩
    case keeps =>
      have hne : x.st ≠ .requesting ∧ x.st ≠ .positioned := by
        constructor <;> intro hn <;> simp [show (s.view c).st = _ from hn] at hv
      rw [exec_headOrder_translates h (htaken _ (by decide) hv) ht hvol, hmapped,
        keepRequest_other (by rw [ordered_view]; exact hne.1), headStays_other (by rw [ordered_view]; exact hne.2),
        acknowledge_of_ordered (v := x) rfl]
      rfl
    case records =>
      rw [exec_headOrder_translates h (by simp [hv]) ht hvol, hmapped, order_keepsRequest (v := x) (t := t') rfl hv rfl, hcyl]
      rfl
    case sends =>
      have he := exec_headOrder_translates h (by simp [hv]) ht hvol w
      rw [hmapped, keepRequest_other (by rw [ordered_view]; simp [headTaken, View.select, hv])] at he
      obtain ⟨hview, -, htouch, -, hasked⟩ := order_headAtOrder (c := c) (s := s) (v := x) hv
      refine ⟨_, he, hview, htouch, fun hp hs => ?_⟩
      obtain ⟨hrelay, horder⟩ := hasked hp hs
      exact ⟨by rw [hrelay]; rfl, horder⟩
  case other =>
    intro place wait
    let x : View := { headTaken c bus s with target := some t' }
    have he : (s.view c).st ∈ [ViewState.standby, .requesting, .deferred, .positioned] →
        exec (.headOrder c bus w) s = .next (acknowledge c (makeRequest c (ordered c x s))) := by
      intro hv
      have hready : ((ordered c (headTaken c bus s) s).view c).st ≠ .notReady := by
        rw [ordered_view]
        intro hn
        simp [show (s.view c).st = .notReady from hn] at hv
      have hmapped := headTranslates_mapped (c := c) (s := ordered c (headTaken c bus s) s) (t := t) (t' := t')
        (by rw [ordered_view]; exact hm)
      rw [if_neg hcyl, if_neg hready, setTarget_ordered] at hmapped
      rw [exec_headOrder_translates h (htaken _ (by decide) hv) ht hvol, hmapped]
    have hne : (s.view c).st ∈ [ViewState.standby, .requesting, .deferred] → x.st ≠ .positioned := by
      intro hv hn
      simp [show (s.view c).st = .positioned from hn] at hv
    have hfour : (s.view c).st ∈ [ViewState.standby, .requesting, .deferred] →
        (s.view c).st ∈ [ViewState.standby, .requesting, .deferred, .positioned] := fun hv =>
      (by decide : [ViewState.standby, .requesting, .deferred] ⊆ [ViewState.standby, .requesting, .deferred, .positioned]) hv
    refine ⟨fun hv hk hb => ?waits, fun hv hk hb hp => ?defers, fun hv hb hends => ?ends, fun hv hb ho hq hp => ?reseeks,
      fun hv hb ho hw => ?decided⟩
    case waits =>
      rw [he (hfour hv), order_waits (v := x) rfl (hne hv) rfl hb (.inl hk)]
      rfl
    case defers =>
      rw [he (hfour hv), order_defers (v := x) rfl rfl hv rfl hb hp fun hc => hk.no_claim hc.1]
      rfl
    case ends =>
      have hv' : (s.view c).st ∈ [ViewState.standby, .requesting, .deferred] :=
        (by decide : [ViewState.standby, .deferred] ⊆ [ViewState.standby, .requesting, .deferred]) hv
      obtain ⟨hview, -, -, hpassed, htouch⟩ := order_endsGrant (v := x) rfl (hne hv') rfl hb hends
      exact ⟨_, he (hfour hv'), hview, hpassed, htouch⟩
    case reseeks =>
      obtain ⟨hview, harb, htouch⟩ := makeRequest_reseek (c := c) (t := t') (s := ordered c x s) (by simp [x])
        (by rw [ordered_view]; exact hv) (by rw [ordered_view, heldBy_ordered]; exact hb) ho hq hp
      rw [ordered_view] at hview harb
      exact ⟨_, he (by simp [hv]), hview, harb, (acknowledge_ordered_touches htouch).mono (by cases c <;> decide)⟩
    case decided =>
      obtain ⟨hview, hdecided, htouch⟩ := makeRequest_reseek_waiting (c := c) (t := t') (s := ordered c x s)
        (by simp [x]) (by rw [ordered_view]; exact hv) (by rw [ordered_view]; rfl)
        (by rw [ordered_view, heldBy_ordered]; exact hb) ho hw
      rw [ordered_view] at hview hdecided
      refine ⟨_, he (by simp [hv]), hview, ?_, (acknowledge_ordered_touches htouch).mono (by cases c <;> decide)⟩
      cases c <;> exact hdecided

end Sys2Proof.Machine
end

section
/-! What the arbiter's and the Interlock Unit's operations spare (`Settled`): the flags of a gate's end, the torn list, the
gates, and the agreement of a view with its record. -/

namespace Sys2Proof.Machine

/-! ## The flags raised, the views and their records -/

/-- Of the flags split by channel only those of these events may have been set (R155). -/
def Raises (es : List ChanEvent) (s t : State) : Prop :=
  t.ev.recordEnable = s.ev.recordEnable ∧ ∀ d e, e ∉ es → t.ev.record (.chan d e) = s.ev.record (.chan d e)

/-- The events of the arbiter, the Interlock Unit and the Mailbox Unit. -/
def arbitrated : List ChanEvent :=
  [.waitLimitGrant, .budgetPreemption, .interlockYield, .interlockOverflow, .mailboxSequenceGap, .mailboxUnrouted]

theorem Raises.refl (es : List ChanEvent) (s : State) : Raises es s s := ⟨rfl, fun _ _ _ => rfl⟩

theorem Raises.of_ev {s t : State} (es : List ChanEvent) (h : t.ev = s.ev) : Raises es s t := by
  rw [Raises, h]
  exact ⟨rfl, fun _ _ _ => rfl⟩

theorem Raises.trans {es : List ChanEvent} {s t u : State} (h : Raises es s t) (k : Raises es t u) : Raises es s u :=
  ⟨k.1.trans h.1, fun d e he => (k.2 d e he).trans (h.2 d e he)⟩

theorem Raises.mono {es fs : List ChanEvent} {s t : State} (h : Raises es s t) (hs : es ⊆ fs) : Raises fs s t :=
  ⟨h.1, fun d e he => h.2 d e fun hm => he (hs hm)⟩

theorem Raises.spares_open {es : List ChanEvent} {s t : State} {d : Chan} {e : ChanEvent} (h : Raises es s t) (he : e ∉ es)
    (ho : Open (.chan d e) s) : Open (.chan d e) t := by
  obtain ⟨henable, hrecord⟩ := h
  obtain ⟨hnone, hset⟩ := ho
  exact ⟨(hrecord d e he).trans hnone, henable ▸ hset⟩

theorem raise_raises {es : List ChanEvent} {f : Flag} (hf : ∀ d e, e ∉ es → Flag.chan d e ≠ f) (c : Option Chan)
    (p : PartAddr) (n : Nat) (s : State) : Raises es s (raise f c p n s) := by
  refine ⟨(EventUnit.occurrence_enables _ _ _).1, fun d e he => ?_⟩
  rw [raise_ev, EventUnit.record_occurrence, if_neg fun h => hf d e he h.1]

theorem raiseFor_raises {es : List ChanEvent} {e : ChanEvent} (he : e ∈ es) (c : Chan) (p : PartAddr) (n : Nat)
    (s : State) : Raises es s (raiseFor c e p n s) :=
  raise_raises (fun _ _ hn h => hn ((Flag.chan.inj h).2 ▸ he)) _ p n s

theorem raiseSole_raises (es : List ChanEvent) (e : SoleEvent) (p : PartAddr) (n : Nat) (s : State) :
    Raises es s (raiseSole e p n s) := raise_raises (f := .sole e) (fun _ _ _ => nofun) _ p n s

/-- A view has a request record only in REQUESTING (R65). -/
def Coherent (s : State) (d : Chan) : Prop := (s.view d).st = .requesting ∨ s.arb.request.get d = none

/-- A view is TRANSFERRING, without a request record. -/
def Busy (s : State) (d : Chan) : Prop := (s.view d).st = .transferring ∧ s.arb.request.get d = none

/-- What operations at the grant level spare beside what they decide. -/
structure Calm (s t : State) : Prop where
  raises   : Raises arbitrated s t
  coherent : ∀ d, Coherent s d → Coherent t d
  busy     : ∀ d, Busy s d → Busy t d

theorem Calm.trans {s t u : State} (h : Calm s t) (k : Calm t u) : Calm s u :=
  ⟨h.raises.trans k.raises, fun d hd => k.coherent d (h.coherent d hd), fun d hd => k.busy d (h.busy d hd)⟩

/-- What `Calm` speaks of: the views, the records, the event unit. -/
def calmPart (s : State) : Pair View × Pair (Option Place) × EventUnit := (s.views, s.arb.request, s.ev)

theorem Calm.of_same {s t : State} (h : calmPart t = calmPart s) : Calm s t := by
  obtain ⟨hviews, hrequest, hev⟩ : t.views = s.views ∧ t.arb.request = s.arb.request ∧ t.ev = s.ev := by
    simpa [calmPart] using h
  have hview : ∀ d, t.view d = s.view d := fun d => by rw [State.view, State.view, hviews]
  refine ⟨.of_ev _ hev, fun d hd => ?_, fun d hd => ?_⟩
  · rw [Coherent, hview, hrequest]; exact hd
  · rw [Busy, hview, hrequest]; exact hd

theorem Calm.after {s t u : State} (k : Calm t u) (h : calmPart t = calmPart s) : Calm s u := (Calm.of_same h).trans k

theorem Calm.refl (s : State) : Calm s s := .of_same rfl

theorem Calm.of_touches {l : List Part} {s t : State} (h : TouchesOnly l s t)
    (hl : ∀ p ∈ [Part.view .a, .view .b, .arb, .ev], p ∉ l) : Calm s t := by
  have hview : ∀ d, t.view d = s.view d := fun d => h (.view d) (hl _ (by cases d <;> simp))
  have harb : t.arb = s.arb := h .arb (hl _ (by simp))
  have hev : t.ev = s.ev := h .ev (hl _ (by simp))
  refine ⟨.of_ev _ hev, fun d hd => ?_, fun d hd => ?_⟩
  · rw [Coherent, hview, harb]; exact hd
  · rw [Busy, hview, harb]; exact hd

theorem calm_view {c : Chan} {v : View} {s : State} (h : (s.view c).st = .requesting → v.st = .requesting)
    (ht : (s.view c).st = .transferring → v.st = .transferring) : Calm s (setView c v s) := by
  refine ⟨.of_ev _ rfl, fun d hd => ?_, fun d hd => ?_⟩
  · by_cases hc : d = c
    · subst hc
      exact hd.imp_left fun hs => by rw [setView_view_self]; exact h hs
    · rw [Coherent, setView_view, if_neg hc]; exact hd
  · by_cases hc : d = c
    · subst hc
      exact hd.imp_left fun hs => by rw [setView_view_self]; exact ht hs
    · rw [Busy, setView_view, if_neg hc]; exact hd

theorem raiseFor_calm {e : ChanEvent} (he : e ∈ arbitrated) (c : Chan) (p : PartAddr) (n : Nat) (s : State) :
    Calm s (raiseFor c e p n s) := ⟨raiseFor_raises he c p n s, fun _ => id, fun _ => id⟩

theorem giveCause_calm (c : Chan) (k : Cause) (s : State) : Calm s (giveCause c k s) := by
  unfold giveCause
  split
  · exact .refl s
  · exact calm_view id id

/-! ## Grants and claims -/

theorem seekFor_calm (n : Nat) (s : State) : Calm s (seekFor n s) :=
  (Calm.of_touches (askSeek_touches n _) (by decide)).after rfl

theorem grantTo_calm (z : Chan) (s : State) : Calm s (grantTo z s) := by
  have hev : (grantTo z s).ev = s.ev := grantTo_touches z s .ev (by simp)
  cases h : s.arb.request.get z with
  | none => rw [grantTo_none h]; exact .refl s
  | some p =>
    have hother : ∀ d, d ≠ z → (grantTo z s).view d = s.view d
        ∧ (grantTo z s).arb.request.get d = s.arb.request.get d := by
      intro d hd
      refine ⟨grantTo_touches z s (.view d) (by simpa using hd), ?_⟩
      rcases grantTo_request z s with hr | hr <;> rw [hr]
      rw [eq_peer_of_ne hd, Pair.get_set_peer]
    refine ⟨.of_ev _ hev, fun d hd => ?_, fun d hd => ?_⟩
    · by_cases hz : d = z
      · subst hz
        rw [Coherent, grantTo_view h, grantTo_arb h]
        by_cases hc : s.pos.cyl = some p.cyl
        · exact .inr (by simp [hc])
        · simp only [hc, if_false]
          exact hd
      · obtain ⟨hview, hrecord⟩ := hother d hz
        rw [Coherent, hview, hrecord]; exact hd
    · have hz : d ≠ z := by
        rintro rfl
        exact absurd (h.symm.trans hd.2) (by simp)
      obtain ⟨hview, hrecord⟩ := hother d hz
      rw [Busy, hview, hrecord]; exact hd

theorem beginTransfer_calm (s : State) : Calm s (beginTransfer s) := by
  unfold beginTransfer beginSector
  split
  · exact .refl s
  · split
    · exact .of_same rfl
    · exact (Calm.of_touches (requestOrder_touches _ _) (by decide)).after rfl

theorem grantInternal_calm (s : State) : Calm s (grantInternal s) := by
  unfold grantInternal
  simp only
  split
  · exact (beginTransfer_calm _).after rfl
  · exact (seekFor_calm _ _).after rfl

theorem decideGrant_calm (s : State) : Calm s (decideGrant s) := by
  rcases decideGrant_cases s with h | ⟨-, h⟩ | ⟨z, -, h⟩ | ⟨z, -, h⟩ <;> rw [h]
  · exact .refl s
  · exact grantInternal_calm s
  · exact grantTo_calm z s
  · exact (raiseFor_calm (by decide) _ _ _ s).trans (grantTo_calm z _)

theorem toFree_calm (s : State) : Calm s (toFree s) := (decideGrant_calm _).after rfl

theorem viewGrantEnd_calm (c : Chan) (s : State) : Calm s (viewGrantEnd c s) := by
  unfold viewGrantEnd
  split
  · rename_i hst
    exact calm_view (by rw [hst]; nofun) (by rw [hst]; nofun)
  · exact .refl s

theorem preempt_calm (c : Chan) (s : State) : Calm s (preempt c s) :=
  (giveCause_calm c _ s).trans (raiseFor_calm (by decide) _ _ _ _)

theorem charge_calm (c : Chan) (s : State) : Calm s (charge c s) := .of_same rfl

theorem headAtGrantEnd_calm (c : Chan) (s : State) : Calm s (headAtGrantEnd c s) := .of_same rfl

theorem grantEnd_calm (c : Chan) (k : EndCause) (s : State) : Calm s (grantEnd c k s) := by
  have hbudget : Calm s (if k = .budget then preempt c (charge c s) else charge c s) := by
    split
    · exact (charge_calm c s).trans (preempt_calm c _)
    · exact charge_calm c s
  unfold grantEnd
  simp only
  refine .trans (.trans ?_ (headAtGrantEnd_calm c _)) (toFree_calm _)
  by_cases hk : k = .reseek ∨ k = .giveUp
  · rw [if_pos hk]; exact hbudget
  · rw [if_neg hk]; exact hbudget.trans (viewGrantEnd_calm c _)

theorem claimEnd_calm (c : Chan) (b : Bool) (s : State) : Calm s (claimEnd c b s) := by
  refine .trans ?_ (toFree_calm _)
  cases b <;> exact .of_same rfl

theorem giveUp_calm (c : Chan) (s : State) : Calm s (giveUp c s) := by
  unfold giveUp
  split
  · split
    · exact (((charge_calm c s).trans (preempt_calm c _)).trans (headAtGrantEnd_calm c _)).trans (toFree_calm _)
    · exact grantEnd_calm c _ s
  · exact .refl s

theorem judgeRelease_calm (s : State) : Calm s (judgeRelease s) := by
  unfold judgeRelease
  split
  · split
    · split
      · exact grantEnd_calm _ _ s
      · exact .refl s
    · exact .refl s
  · exact .refl s

/-! ## Requests -/

theorem reseek_calm (c : Chan) (p : Place) (s : State) : Calm s (reseek c p s) := by
  unfold reseek
  split
  · exact grantEnd_calm c _ s
  · exact (seekFor_calm _ _).after rfl

/-- A request of a view in REQUESTING leaves the views and their records in agreement (R65). -/
theorem requestArrives_calm {c : Chan} {s : State} (hc : (s.view c).st = .requesting) (p : Place) :
    Calm s (requestArrives c p s) := by
  have hrecord : Calm s (withRequest c (some p) s) := by
    refine ⟨.of_ev _ rfl, fun d hd => ?_, fun d hd => ?_⟩
    · by_cases h : d = c
      · subst h; exact .inl hc
      · rw [eq_peer_of_ne h] at hd ⊢
        exact hd.imp_right fun hn => by simpa [withRequest] using hn
    · have h : d ≠ c := by
        rintro rfl
        exact absurd (hc.symm.trans hd.1) (by decide)
      rw [eq_peer_of_ne h] at hd ⊢
      exact hd.imp_right fun hn => by simpa [withRequest] using hn
  refine hrecord.trans ?_
  cases h : s.arb.st with
  | free =>
    have hdecide : requestArrives c p s = decideGrant (withRequest c (some p) s) := by
      rcases s with ⟨_, _, _, ⟨st⟩⟩
      obtain rfl : st = .free := h
      rfl
    rw [hdecide]
    exact decideGrant_calm _
  | claimed x k =>
    rw [requestArrives_claim h]
    unfold retargetHeld
    split
    · split <;> exact .of_same rfl
    · exact .refl _
  | owned x =>
    rw [requestArrives_owned h]
    split
    · exact reseek_calm c p _
    · split
      · exact .refl _
      · exact judgeRelease_calm _
  | internal => rw [requestArrives_keeps (.inl h)]; exact .refl _
  | halted => rw [requestArrives_keeps (.inr (.inl h))]; exact .refl _

theorem withdrawRequest_calm (c : Chan) (s : State) : Calm s (withdrawRequest c s) := by
  have hrecord : Calm s { s with arb := withoutRequest s c } := by
    refine ⟨.of_ev _ rfl, fun d hd => ?_, fun d hd => ?_⟩
    · by_cases h : d = c
      · subst h; exact .inr (by simp [withoutRequest])
      · rw [eq_peer_of_ne h] at hd ⊢
        exact hd.imp_right fun hn => by simpa [withoutRequest] using hn
    · by_cases h : d = c
      · subst h; exact ⟨hd.1, by simp [withoutRequest]⟩
      · rw [eq_peer_of_ne h] at hd ⊢
        exact hd.imp_right fun hn => by simpa [withoutRequest] using hn
  by_cases h : (∃ k, s.arb.st = .claimed c k) ∧ s.pos.held ≠ none
  · obtain ⟨⟨k, hk⟩, hheld⟩ := h
    obtain ⟨n, hn⟩ := Option.ne_none_iff_exists'.1 hheld
    rw [withdrawRequest_claim hk hn]
    exact hrecord.trans (claimEnd_calm c _ _)
  · rw [withdrawRequest_record h]
    exact hrecord

theorem releaseTest_calm (c : Chan) (s : State) : Calm s (releaseTest c s) := by
  unfold releaseTest
  split
  · rename_i hst
    split
    · exact .of_same rfl
    · have hset : Calm s (setDeferred c none (setViewState c .requesting s)) :=
        (calm_view (v := { s.view c with st := .requesting }) (fun _ => rfl) (by rw [hst]; nofun)).trans (.of_same rfl)
      cases h : (s.view c).place with
      | none => simp only [letThrough, h]; exact hset
      | some p =>
        rw [letThrough_eq h]
        exact hset.trans (requestArrives_calm (by simp [setViewState]) p)
  · exact .refl s

/-! ## What the end of a gate leaves to stand -/

/-- The relay's gate and torn list, the gates at the drive port and PEER TORN WRITE are kept, and no flag of a gate's end is
raised (R109, R114, R115). -/
structure Guards (s t : State) : Prop where
  gate   : t.relay.gate = s.relay.gate
  torn   : t.relay.torn = s.relay.torn
  read   : t.drive.readGate = s.drive.readGate
  write  : t.drive.writeGate = s.drive.writeGate
  cause  : ∀ d, (t.view d).causes.peerTornWrite = (s.view d).causes.peerTornWrite
  raises : Raises arbitrated s t

theorem Guards.trans {s t u : State} (h : Guards s t) (k : Guards t u) : Guards s u :=
  ⟨k.gate.trans h.gate, k.torn.trans h.torn, k.read.trans h.read, k.write.trans h.write,
    fun d => (k.cause d).trans (h.cause d), h.raises.trans k.raises⟩

/-- What `Guards` speaks of. -/
def guardPart (s : State) : Pair View × Option GateRecord × List TornEntry × Bool × Bool × EventUnit :=
  (s.views, s.relay.gate, s.relay.torn, s.drive.readGate, s.drive.writeGate, s.ev)

theorem Guards.of_same {s t : State} (h : guardPart t = guardPart s) : Guards s t := by
  obtain ⟨hviews, hgate, htorn, hread, hwrite, hev⟩ : t.views = s.views ∧ t.relay.gate = s.relay.gate
      ∧ t.relay.torn = s.relay.torn ∧ t.drive.readGate = s.drive.readGate ∧ t.drive.writeGate = s.drive.writeGate
      ∧ t.ev = s.ev := by simpa [guardPart] using h
  exact ⟨hgate, htorn, hread, hwrite, fun d => by rw [State.view, State.view, hviews], .of_ev _ hev⟩

theorem Guards.refl (s : State) : Guards s s := .of_same rfl

theorem guards_view {c : Chan} {v : View} {s : State} (h : v.causes.peerTornWrite = (s.view c).causes.peerTornWrite) :
    Guards s (setView c v s) := by
  refine ⟨rfl, rfl, rfl, rfl, fun d => ?_, .of_ev _ rfl⟩
  rw [setView_view]
  split
  · rename_i hd
    rw [h, hd]
  · rfl

theorem Decides.guards {s t : State} (h : Decides s t) (hr : Raises arbitrated s t) : Guards s t :=
  ⟨h.gate, h.torn, by rw [h.drive], by rw [h.drive], fun d => by rw [h.view d], hr⟩

/-- What the arbiter and the Interlock Unit leave of a view: all but its state, its idle count and its causes. -/
def Likened (s t : State) : Prop :=
  ∀ d, t.view d = { s.view d with st := (t.view d).st, idle := (t.view d).idle, causes := (t.view d).causes }

theorem Likened.trans {s t u : State} (h : Likened s t) (k : Likened t u) : Likened s u := fun d => by
  have hd := k d
  rw [h d] at hd
  exact hd

theorem Likened.of_views {s t : State} (h : t.views = s.views) : Likened s t := fun d => by
  rw [State.view, State.view, h]

/-- The operations of a gate's end past its judgement. -/
structure Settled (s t : State) : Prop where
  guards  : Guards s t
  likened : Likened s t
  calm    : Calm s t

theorem Settled.trans {s t u : State} (h : Settled s t) (k : Settled t u) : Settled s u :=
  ⟨h.guards.trans k.guards, h.likened.trans k.likened, h.calm.trans k.calm⟩

theorem Settled.refl (s : State) : Settled s s := ⟨.refl s, fun _ => rfl, .refl s⟩

theorem Decides.settled {s t : State} (h : Decides s t) (hc : Calm s t) : Settled s t :=
  ⟨h.guards hc.raises, fun d => by rw [h.view d], hc⟩

theorem settled_ilock (s : State) (i : Interlock) : Settled s { s with ilock := i } :=
  ⟨.of_same rfl, .of_views rfl, .of_same rfl⟩

theorem releaseTest_settled (c : Chan) (s : State) : Settled s (releaseTest c s) :=
  (releaseTest_decides c s).settled (releaseTest_calm c s)

theorem removeEntries_settled (test : Entry → Bool) (s : State) : Settled s (removeEntries test s) := by
  have h := settled_ilock s (s.ilock.remove test)
  unfold removeEntries
  simp only
  split <;> split
  · exact (h.trans (releaseTest_settled .a _)).trans (releaseTest_settled .b _)
  · exact h.trans (releaseTest_settled .b _)
  · exact h.trans (releaseTest_settled .a _)
  · exact h

theorem raiseFor_settled {e : ChanEvent} (he : e ∈ arbitrated) (c : Chan) (p : PartAddr) (n : Nat) (s : State) :
    Settled s (raiseFor c e p n s) :=
  (decides_raise _ _ p n s).settled (raiseFor_calm he c p n s)

theorem overflowOldest_settled (c : Chan) (s : State) : Settled s (overflowOldest c s) := by
  unfold overflowOldest
  split
  · exact .refl s
  · exact (raiseFor_settled (by decide) c _ _ s).trans (removeEntries_settled _ _)

theorem setChain_settled (c : Chan) (t : Stamp) (s : State) : Settled s (setChain c t s) := settled_ilock s _

/-- An entry that takes the place of a REQUESTING peer defers it, its record withdrawn (R119, R124). -/
theorem appendEntry_settled (c : Chan) (p : Place) (s : State) : Settled s (appendEntry c p s) := by
  have h := settled_ilock s { s.ilock with list := s.ilock.list ++ [⟨c, p.vol, p.cyl, s.uptime, s.uptime, 1⟩] }
  unfold appendEntry
  simp only
  split
  · rename_i hst
    refine h.trans ?_
    generalize { s with ilock := _ } = r at hst ⊢
    let w := setDeferred (peer c) (some p) (setViewState (peer c) .deferred r)
    have hset : Decides r w := (decides_setViewState _ _ _).trans (decides_setDeferred _ _ _)
    have hother : ∀ d, d ≠ peer c → w.view d = r.view d := fun d hd => by
      simp [w, setViewState, setView_view, hd]
    have hcalm := withdrawRequest_calm (peer c) w
    refine (hset.trans (withdrawRequest_decides (peer c) w)).settled
      ⟨(Raises.of_ev _ rfl).trans hcalm.raises, fun d hd => ?_, fun d hd => ?_⟩
    · by_cases hp : d = peer c
      · subst hp
        exact .inr (withdrawRequest_quiet (peer c) w).2.1
      · exact hcalm.coherent d (by rw [Coherent, hother d hp]; exact hd)
    · by_cases hp : d = peer c
      · subst hp
        exact absurd (hst.1.symm.trans hd.1) (by decide)
      · exact hcalm.busy d (by rw [Busy, hother d hp]; exact hd)
  · exact h

theorem fullSharedWrite_settled (c : Chan) (p : Place) (s : State) : Settled s (fullSharedWrite c p s) := by
  unfold fullSharedWrite
  split
  · exact (settled_ilock s _).trans (setChain_settled c _ _)
  · split
    · split
      · exact .refl s
      · exact setChain_settled c _ s
    · split
      · exact (setChain_settled c _ s).trans (appendEntry_settled c p _)
      · exact ((overflowOldest_settled c s).trans (setChain_settled c _ _)).trans (appendEntry_settled c p _)

theorem reportInterlock_settled (g : GateRecord) (s : State) : Settled s (reportInterlock g s) := by
  unfold reportInterlock
  split
  · exact fullSharedWrite_settled _ _ s
  · exact .refl s

theorem removeChain_guards (c : Chan) (s : State) : Guards s (removeChain c s) := (removeEntries_settled _ s).guards

/-! ## Marks on the views -/

/-- The events of a torn write and of the Mailbox Unit. -/
def marking : List ChanEvent := [.tornSector, .mailboxSequenceGap, .mailboxUnrouted]

/-- What only gives causes and raises events of a torn write or of the Mailbox Unit (R42, R115, R133 to R136). -/
structure Marks (s t : State) : Prop where
  frame  : TouchesOnly [.view .a, .view .b, .mbox, .relay, .ev] s t
  view   : ∀ d, t.view d = { s.view d with causes := (t.view d).causes }
  raises : Raises marking s t

theorem Marks.trans {s t u : State} (h : Marks s t) (k : Marks t u) : Marks s u :=
  ⟨h.frame.trans k.frame, fun d => by have hd := k.view d; rw [h.view d] at hd; exact hd, h.raises.trans k.raises⟩

theorem Marks.refl (s : State) : Marks s s := ⟨.refl _ s, fun _ => rfl, .refl _ s⟩

theorem Marks.coherent {s t : State} (h : Marks s t) (d : Chan) (hd : Coherent s d) : Coherent t d := by
  rw [Coherent, h.view d, show t.arb = s.arb from h.frame .arb (by decide)]
  exact hd

theorem Marks.busy {s t : State} (h : Marks s t) (d : Chan) (hd : Busy s d) : Busy t d := by
  rw [Busy, h.view d, show t.arb = s.arb from h.frame .arb (by decide)]
  exact hd

theorem Marks.likened {s t : State} (h : Marks s t) : Likened s t := fun d => by rw [h.view d]

theorem raiseFor_marks {e : ChanEvent} (he : e ∈ marking) (c : Chan) (p : PartAddr) (n : Nat) (s : State) :
    Marks s (raiseFor c e p n s) :=
  ⟨(touches_ev s _).mono (by decide), fun _ => rfl, raiseFor_raises he c p n s⟩

theorem setCauses_marks (c : Chan) (k : Causes) (s : State) : Marks s (setView c { s.view c with causes := k } s) := by
  refine ⟨(touches_view c _ s).mono (by cases c <;> decide), fun d => ?_, .of_ev _ rfl⟩
  rw [setView_view]
  split
  · rename_i hd
    rw [hd]
  · rfl

theorem giveCause_marks (c : Chan) (k : Cause) (s : State) : Marks s (giveCause c k s) := by
  unfold giveCause
  split
  · exact .refl s
  · exact setCauses_marks c _ s

theorem marks_relay (s : State) (r : Relay) : Marks s { s with relay := r } :=
  ⟨(touches_relay s r).mono (by decide), fun _ => rfl, .of_ev _ rfl⟩

end Sys2Proof.Machine
end

section
/-! The end of a passed gate (R109): its judgement, its reports, and what `GateJudged` says of the part after it. -/

namespace Sys2Proof.Machine

/-! ## The Mailbox Unit's reports -/

/-- What the Mailbox Unit does at a report: its own part, MAILBOX NOTICE, and its events (R42, R133 to R136). -/
structure Posts (s t : State) : Prop where
  frame  : TouchesOnly [.view .a, .view .b, .mbox, .ev] s t
  view   : ∀ d, t.view d = { s.view d with
    causes := { (s.view d).causes with mailboxNotice := (t.view d).causes.mailboxNotice } }
  raises : Raises [.mailboxSequenceGap, .mailboxUnrouted] s t

theorem Posts.trans {s t u : State} (h : Posts s t) (k : Posts t u) : Posts s u :=
  ⟨h.frame.trans k.frame, fun d => by have hd := k.view d; rw [h.view d] at hd; exact hd, h.raises.trans k.raises⟩

theorem Posts.refl (s : State) : Posts s s := ⟨.refl _ s, fun _ => rfl, .refl _ s⟩

theorem Posts.marks {s t : State} (h : Posts s t) : Marks s t :=
  ⟨h.frame.mono (by decide), fun d => by rw [h.view d], h.raises.mono (by decide)⟩

theorem Posts.settled {s t : State} (h : Posts s t) : Settled s t := by
  have hrelay : t.relay = s.relay := h.frame .relay (by decide)
  have hdrive : t.drive = s.drive := h.frame .drive (by decide)
  have hraises : Raises arbitrated s t := h.raises.mono (by decide)
  exact ⟨⟨by rw [hrelay], by rw [hrelay], by rw [hdrive], by rw [hdrive], fun d => by rw [h.view d], hraises⟩,
    h.marks.likened, ⟨hraises, h.marks.coherent, h.marks.busy⟩⟩

theorem posts_mbox (s : State) (m : Mailbox) : Posts s { s with mbox := m } :=
  ⟨(touches_mbox s m).mono (by decide), fun _ => rfl, .of_ev _ rfl⟩

theorem raiseFor_posts {e : ChanEvent} (he : e ∈ [ChanEvent.mailboxSequenceGap, .mailboxUnrouted]) (c : Chan)
    (p : PartAddr) (n : Nat) (s : State) : Posts s (raiseFor c e p n s) :=
  ⟨(touches_ev s _).mono (by decide), fun _ => rfl, raiseFor_raises he c p n s⟩

theorem setNotice_posts (c : Chan) (l : List (Fin 24)) (s : State) : Posts s (setNotice c l s) := by
  refine (posts_mbox s { s.mbox with notice := s.mbox.notice.set c l }).trans
    ⟨(touches_view c _ _).mono (by cases c <;> decide), fun d => ?_, .of_ev _ rfl⟩
  rw [setNotice, setView_view]
  split
  · rename_i hd
    rw [hd]
    rfl
  · rfl

theorem raiseGap_posts (c : Chan) (n : Nat) (k : Fin 24) (q : BitVec 8) (s : State) : Posts s (raiseGap c n k q s) := by
  unfold raiseGap
  split
  · split
    · exact .refl s
    · exact raiseFor_posts (by decide) c _ _ s
  · exact .refl s

theorem mailboxWrite_posts (c : Chan) (n : Nat) (k : Fin 24) (r : Word) (s : State) :
    Posts s (mailboxWrite c n k r s) := by
  unfold mailboxWrite
  split
  · exact .refl s
  · unfold postMessage
    split
    · exact .refl s
    · exact ((raiseGap_posts c n k _ s).trans (posts_mbox _ _)).trans (setNotice_posts _ _ _)
  · exact raiseFor_posts (by decide) c _ _ s

theorem mailboxRead_posts (c : Chan) (k : Fin 24) (s : State) : Posts s (mailboxRead c k s) := by
  unfold mailboxRead
  split
  · exact (posts_mbox s _).trans (setNotice_posts c _ _)
  · exact .refl s

theorem reportMailbox_posts (g : GateRecord) (s : State) : Posts s (reportMailbox g s) := by
  unfold reportMailbox
  split
  · split
    · split
      · exact .refl s
      · exact mailboxRead_posts _ _ s
    · split
      · exact mailboxWrite_posts _ _ _ _ s
      · exact .refl s
  · exact .refl s

/-! ## The judgement -/

theorem raiseSole_marks (e : SoleEvent) (p : PartAddr) (n : Nat) (s : State) : Marks s (raiseSole e p n s) :=
  ⟨(touches_ev s _).mono (by decide), fun _ => rfl, raiseSole_raises _ e p n s⟩

theorem addTorn_marks (e : TornEntry) (s : State) : Marks s (addTorn e s) := by
  unfold addTorn
  simp only
  split
  · split
    · exact (raiseSole_marks _ _ _ s).trans (marks_relay _ _)
    · exact marks_relay s _
  · exact marks_relay s _

/-- The torn list with a new entry: in the place of its address, into room or over the oldest (R114). -/
theorem addTorn_torn (e : TornEntry) (s : State) :
    (addTorn e s).relay.torn =
      let kept := s.relay.torn.filter fun x => decide (x.addr ≠ e.addr)
      (if kept.length < 4 then kept else kept.tail) ++ [e] := by
  have hkept : withoutAddr s.relay.torn e.addr = s.relay.torn.filter fun x => decide (x.addr ≠ e.addr) := rfl
  simp only [addTorn, ← hkept]
  cases withoutAddr s.relay.torn e.addr with
  | nil => rfl
  | cons old rest =>
    by_cases hroom : 4 ≤ (old :: rest).length
    · rw [if_neg (Nat.not_lt.2 hroom)]
      simp only [hroom, if_true]
      rfl
    · rw [if_pos (Nat.not_le.1 hroom)]
      simp only [hroom, if_false]
      rfl

theorem addTorn_gate (e : TornEntry) (s : State) : (addTorn e s).relay.gate = s.relay.gate := by
  simp only [addTorn]
  cases withoutAddr s.relay.torn e.addr with
  | nil => rfl
  | cons old rest =>
    by_cases hroom : 4 ≤ (old :: rest).length
    · simp only [hroom, if_true]
      rfl
    · simp only [hroom, if_false]
      rfl

theorem tearWrite_marks (g : GateRecord) (k : TearCause) (s : State) : Marks s (tearWrite g k s) := by
  have h := (addTorn_marks ⟨g.addr, .chan g.chan, k, s.uptime⟩ s).trans
    (raiseFor_marks (e := .tornSector) (by decide) g.chan g.addr.whole (detailE7 k g.words) _)
  unfold tearWrite
  simp only
  split
  · exact h.trans (giveCause_marks _ _ _)
  · exact h

theorem judgeGate_marks (g : GateRecord) (k : TearCause) (s : State) : Marks s (judgeGate g k s) := by
  unfold judgeGate
  split
  · exact .refl s
  · split
    · exact marks_relay s _
    · exact tearWrite_marks g k s

theorem addTorn_spares (e : TornEntry) (s : State) : Raises [] s (addTorn e s) := by
  unfold addTorn
  simp only
  split
  · split
    · exact (raiseSole_raises _ _ _ _ s).trans (.of_ev _ rfl)
    · exact .of_ev _ rfl
  · exact .of_ev _ rfl

theorem giveCause_gives {c : Chan} {k : Cause} {s : State} (h : (s.view c).st ≠ .detached) :
    ((giveCause c k s).view c).causes = (s.view c).causes.add k := by
  simp [giveCause, h]

@[simp] theorem giveCause_relay (c : Chan) (k : Cause) (s : State) : (giveCause c k s).relay = s.relay := by
  unfold giveCause
  split <;> rfl

@[simp] theorem giveCause_ev (c : Chan) (k : Cause) (s : State) : (giveCause c k s).ev = s.ev := by
  unfold giveCause
  split <;> rfl

/-- A torn write: the entry, E7, and PEER TORN WRITE where the peer shares the cylinder (R114, R115). -/
theorem tearWrite_judges (g : GateRecord) (k : TearCause) (s : State) :
    let u := tearWrite g k s
    let kept := s.relay.torn.filter fun e => decide (e.addr ≠ g.addr)
    u.relay.gate = s.relay.gate
      ∧ u.relay.torn = (if kept.length < 4 then kept else kept.tail) ++ [⟨g.addr, .chan g.chan, k, s.uptime⟩]
      ∧ (Open (.chan g.chan .tornSector) s → Recorded (.chan g.chan .tornSector) (k.code * 2 ^ 13 + g.words) u)
      ∧ ((s.view (peer g.chan)).st ≠ .detached → spanHas (s.map.extents (peer g.chan)) g.addr.vol g.addr.cyl
          (fun k => decide (k = .shared ∨ k = .mailbox)) = true →
          (u.view (peer g.chan)).causes.peerTornWrite = true) := by
  intro u kept
  let e : TornEntry := ⟨g.addr, .chan g.chan, k, s.uptime⟩
  let r := raiseFor g.chan .tornSector g.addr.whole (detailE7 k g.words) (addTorn e s)
  have hmarks : Marks s r := (addTorn_marks e s).trans
    (raiseFor_marks (e := .tornSector) (by decide) g.chan g.addr.whole (detailE7 k g.words) _)
  have hu : u = if peerShares r g.chan g.addr then giveCause (peer g.chan) .peerTornWrite r else r := rfl
  have hrelay : u.relay = (addTorn e s).relay := by
    rw [hu]
    split
    · exact giveCause_relay _ _ r
    · rfl
  have hev : u.ev = r.ev := by
    rw [hu]
    split
    · exact giveCause_ev _ _ r
    · rfl
  refine ⟨?gate, ?torn, fun hopen => ?record, fun hpeer hshares => ?cause⟩
  case gate =>
    rw [hrelay]
    exact addTorn_gate e s
  case torn => rw [hrelay, addTorn_torn]
  case record =>
    have hrecorded := recorded_raise (.chan g.chan .tornSector) (some g.chan) g.addr.whole (detailE7 k g.words)
      (addTorn e s) ((addTorn_spares e s).spares_open (by simp) hopen)
    unfold Recorded
    rw [hev]
    exact hrecorded
  case cause =>
    have hmap : r.map = s.map := hmarks.frame .map (by decide)
    have hholds : peerShares r g.chan g.addr = true := by rw [peerShares, hmap]; exact hshares
    have hattached : (r.view (peer g.chan)).st ≠ .detached := by rw [hmarks.view]; exact hpeer
    rw [hu, if_pos hholds, giveCause_gives hattached]
    rfl

/-! ## The end of a gate -/

/-- The part in which a passed gate has dropped, before its judgement (R109). -/
def dropped (g : GateRecord) (w : Carried) (s : State) : State :=
  dropDriveGates (relayData (g.carry w) w { s with relay := { s.relay with gate := none } })

theorem endGate_eq {g : GateRecord} {s : State} (h : s.relay.gate = some g) (k : TearCause) (w : Carried) :
    endGate k w s =
      reportMailbox (g.carry w) (reportInterlock (g.carry w) (judgeGate (g.carry w) k (dropped g w s))) := by
  simp only [endGate, h]
  rfl

theorem relayData_touches (g : GateRecord) (w : Carried) (s : State) :
    TouchesOnly [.port g.chan, .drive] s (relayData g w s) := by
  unfold relayData
  split
  · exact (touches_port g.chan _ s).mono (by simp)
  · exact (touches_drive s _).mono (by simp)

theorem dropDriveGates_touches (s : State) : TouchesOnly [.drive] s (dropDriveGates s) :=
  (touches_drive s _).trans (offerNext_touches _)

theorem dropDriveGates_low (s : State) :
    (dropDriveGates s).drive.readGate = false ∧ (dropDriveGates s).drive.writeGate = false := by
  unfold dropDriveGates
  rw [(offerNext_decides _).drive]
  exact ⟨rfl, rfl⟩

theorem dropped_touches (g : GateRecord) (w : Carried) (s : State) :
    TouchesOnly [.port g.chan, .relay, .drive] s (dropped g w s) :=
  ((touches_relay s _).mono (by simp)).trans
    (((relayData_touches (g.carry w) w _).mono (by simp [GateRecord.carry])).trans
      ((dropDriveGates_touches _).mono (by simp)))

theorem dropped_relay (g : GateRecord) (w : Carried) (s : State) :
    (dropped g w s).relay = { s.relay with gate := none } :=
  Eq.trans (dropDriveGates_touches _ .relay (by decide)) (relayData_touches _ w _ .relay (by simp))

theorem dropped_port (g : GateRecord) (w : Carried) (s : State) (d : Chan) :
    (dropped g w s).port d = { s.port d with readData := ((dropped g w s).port d).readData } := by
  rw [show (dropped g w s).port d = _ from dropDriveGates_touches _ (.port d) (by simp)]
  unfold relayData
  split
  · simp only [setPort_port]
    split
    · rename_i hd
      rw [hd]
      rfl
    · rfl
  · rfl

/-- The judgement of a gate that has dropped (R109 steps 1 and 2). -/
theorem judgeGate_judged {g : GateRecord} {s : State} (k : TearCause) (w : Carried) :
    GateJudged k g w s (judgeGate (g.carry w) k (dropped g w s)) := by
  have hrelay := dropped_relay g w s
  have htouch := dropped_touches g w s
  have hcode : [TearCause.shortWrite, .gateOverrun, .presenceLost, .driveDropped, .driveFault].idxOf k = k.code := by
    cases k <;> rfl
  have huptime : (dropped g w s).uptime = s.uptime := htouch .uptime (by simp)
  have hmap : (dropped g w s).map = s.map := htouch .map (by simp)
  have hev : (dropped g w s).ev = s.ev := htouch .ev (by simp)
  have hview : ∀ d, (dropped g w s).view d = s.view d := fun d => htouch (.view d) (by simp)
  unfold GateJudged
  rw [hcode]
  by_cases hread : g.kind = .read
  · have hjudge : judgeGate (g.carry w) k (dropped g w s) = dropped g w s := if_pos hread
    rw [hjudge, hrelay]
    exact ⟨rfl, fun _ => rfl, fun h => absurd hread h, fun h => absurd hread h⟩
  · cases hfull : reachedCheckWord w with
    | true =>
      have hjudge : judgeGate (g.carry w) k (dropped g w s) = mendSector g.addr (dropped g w s) := by
        rw [judgeGate, if_neg (show ¬(g.carry w).kind = .read from hread),
          if_pos (show (g.carry w).checkWord = true from hfull)]
        rfl
      rw [hjudge]
      refine ⟨?_, fun h => absurd h hread, fun _ _ => ?_, fun _ h => by simp at h⟩
      · simp only [mendSector, setTorn, hrelay]
      · simp only [mendSector, setTorn, hrelay]
        rfl
    | false =>
      have hjudge : judgeGate (g.carry w) k (dropped g w s) = tearWrite (g.carry w) k (dropped g w s) := by
        rw [judgeGate, if_neg (show ¬(g.carry w).kind = .read from hread),
          if_neg (show ¬(g.carry w).checkWord = true by simp [GateRecord.carry, hfull])]
      obtain ⟨hgate, htorn, hrecord, hcause⟩ := tearWrite_judges (g.carry w) k (dropped g w s)
      rw [hjudge]
      rw [hrelay] at hgate htorn
      rw [huptime] at htorn
      rw [hview, hmap] at hcause
      simp only [Open, hev] at hrecord
      exact ⟨hgate, fun h => absurd h hread, fun _ h => by simp at h, fun _ _ => ⟨fun _ => htorn, hrecord, hcause⟩⟩

/-- A judgement stands while the relay's gate and torn list, PEER TORN WRITE and the flag of E7 do. -/
theorem GateJudged.stands {k : TearCause} {g : GateRecord} {w : Carried} {s t u : State} {es : List ChanEvent}
    (h : GateJudged k g w s t) (hg : u.relay.gate = t.relay.gate) (ht : u.relay.torn = t.relay.torn)
    (hv : ∀ d, (u.view d).causes.peerTornWrite = (t.view d).causes.peerTornWrite) (hr : Raises es t u)
    (he : .tornSector ∉ es) : GateJudged k g w s u := by
  unfold GateJudged at h ⊢
  rw [hg, ht]
  obtain ⟨hgate, hread, hfull, hshort⟩ := h
  refine ⟨hgate, hread, hfull, fun hw hc => ?_⟩
  obtain ⟨htorn, hrecord, hcause⟩ := hshort hw hc
  refine ⟨htorn, fun hopen => ?_, fun hp hs => (hv _).trans (hcause hp hs)⟩
  have hflag := hr.2 g.chan .tornSector he
  unfold Recorded
  rw [hflag]
  exact hrecord hopen

theorem GateJudged.keep {k : TearCause} {g : GateRecord} {w : Carried} {s t u : State} (h : GateJudged k g w s t)
    (hg : Guards t u) : GateJudged k g w s u := h.stands hg.gate hg.torn hg.cause hg.raises (by decide)

/-- A judgement speaks of the part before only by its torn list, its clock, its map, its flags and the state of its views. -/
theorem GateJudged.before {k : TearCause} {g : GateRecord} {w : Carried} {s t u : State} (h : GateJudged k g w t u)
    (htorn : t.relay.torn = s.relay.torn) (huptime : t.uptime = s.uptime) (hmap : t.map = s.map)
    (hst : ∀ d, (t.view d).st = (s.view d).st) (hr : Raises [] s t) : GateJudged k g w s u := by
  obtain ⟨hgate, hread, hfull, hshort⟩ := h
  rw [htorn] at hread hfull
  refine ⟨hgate, hread, hfull, fun hw hc => ?_⟩
  obtain ⟨hnew, hrecord, hcause⟩ := hshort hw hc
  rw [TornLaw, htorn, huptime] at hnew
  rw [hst, hmap] at hcause
  exact ⟨hnew, fun hopen => hrecord (hr.spares_open (by simp) hopen), hcause⟩

/-- What the end of a passed gate has done (R109 steps 1 to 4). -/
structure GateEnded (k : TearCause) (g : GateRecord) (w : Carried) (s u : State) : Prop where
  judged   : GateJudged k g w s u
  readLow  : u.drive.readGate = false
  writeLow : u.drive.writeGate = false
  frame    : TouchesOnly (.port g.chan :: .mbox :: Part.reached) s u
  port     : ∀ d, u.port d = { s.port d with readData := (u.port d).readData }
  likened  : Likened s u
  raises   : Raises (.tornSector :: arbitrated) s u
  coherent : ∀ d, Coherent s d → Coherent u d
  busy     : ∀ d, Busy s d → Busy u d

theorem GateEnded.ack {k : TearCause} {g : GateRecord} {w : Carried} {s u : State} (h : GateEnded k g w s u) (d : Chan) :
    (u.port d).ack = (s.port d).ack := by rw [h.port d]

theorem endGate_ended {g : GateRecord} {s : State} (h : s.relay.gate = some g) (k : TearCause) (w : Carried) :
    GateEnded k g w s (endGate k w s) := by
  have hdropped := dropped_touches g w s
  have hmarks := judgeGate_marks (g.carry w) k (dropped g w s)
  have hreports : Settled (judgeGate (g.carry w) k (dropped g w s)) (endGate k w s) := by
    rw [endGate_eq h]
    exact (reportInterlock_settled _ _).trans (reportMailbox_posts _ _).settled
  have hreportsFrame : TouchesOnly (.mbox :: Part.reached) (judgeGate (g.carry w) k (dropped g w s)) (endGate k w s) := by
    rw [endGate_eq h]
    exact ((reportInterlock_moves _ _).frame.mono (by decide)).trans ((reportMailbox_posts _ _).frame.mono (by decide))
  have hdrive : (judgeGate (g.carry w) k (dropped g w s)).drive = (dropped g w s).drive := hmarks.frame .drive (by decide)
  have hlow := dropDriveGates_low (relayData (g.carry w) w { s with relay := { s.relay with gate := none } })
  have hcalm : ∀ d, (dropped g w s).view d = s.view d := fun d => hdropped (.view d) (by simp)
  have harb : (dropped g w s).arb = s.arb := hdropped .arb (by simp)
  refine ⟨(judgeGate_judged k w).keep hreports.guards, ?_, ?_, ?_, fun d => ?_, ?_, ?_, fun d hd => ?_, fun d hd => ?_⟩
  · rw [hreports.guards.read, hdrive]
    exact hlow.1
  · rw [hreports.guards.write, hdrive]
    exact hlow.2
  · refine (hdropped.mono ?_).trans ((hmarks.frame.mono ?_).trans (hreportsFrame.mono ?_))
    · cases g.chan <;> decide
    · cases g.chan <;> decide
    · simp
  · have hports : (endGate k w s).port d = (dropped g w s).port d :=
      Eq.trans (hreportsFrame (.port d) (by cases d <;> decide)) (hmarks.frame (.port d) (by simp))
    rw [hports]
    exact dropped_port g w s d
  · have hsame : Likened s (dropped g w s) := fun d => by rw [hcalm]
    exact hsame.trans (hmarks.likened.trans hreports.likened)
  · exact ((Raises.of_ev _ (hdropped .ev (by simp))).trans (hmarks.raises.mono (by decide))).trans
      (hreports.guards.raises.mono (by simp))
  · exact hreports.calm.coherent d (hmarks.coherent d (by rw [Coherent, hcalm, harb]; exact hd))
  · exact hreports.calm.busy d (hmarks.busy d (by rw [Busy, hcalm, harb]; exact hd))

end Sys2Proof.Machine
end

section
/-! A passed gate cut by an order of its channel or by the next sector start (R29, R30, R110). -/

namespace Sys2Proof.Machine

/-! ## A view that leaves without a record -/

theorem toFree_mayGrant (c : Chan) (s : State) : MayGrant c s (toFree s) := by
  rw [toFree_eq]
  exact (decideGrant_mayGrant c (freed s)).after rfl rfl rfl rfl

theorem preempt_arb (c : Chan) (s : State) : (preempt c s).arb = s.arb := by
  unfold preempt giveCause
  split <;> rfl

/-- A view without a record that gives up its grant keeps all but its causes (R75, R79). -/
theorem giveUp_view {c : Chan} {s : State} (hr : s.arb.request.get c = none) :
    (giveUp c s).view c = { s.view c with causes := ((giveUp c s).view c).causes }
      ∧ (giveUp c s).arb.request.get c = none := by
  unfold giveUp
  split
  · split
    · have hpreempt : (preempt c (charge c s)).view c =
          { s.view c with causes := ((preempt c (charge c s)).view c).causes } := (giveCause_marks c _ (charge c s)).view c
      have hrecord : (headAtGrantEnd c (preempt c (charge c s))).arb.request.get c = none := by
        rw [show (headAtGrantEnd c (preempt c (charge c s))).arb = (preempt c (charge c s)).arb from rfl, preempt_arb]
        exact hr
      have hgrant := toFree_mayGrant c (headAtGrantEnd c (preempt c (charge c s)))
      have hview : (toFree (headAtGrantEnd c (preempt c (charge c s)))).view c = (preempt c (charge c s)).view c :=
        hgrant.view_kept hrecord
      exact ⟨by rw [hview]; exact hpreempt, (hgrant.quiet hrecord).1⟩
    · have hgrant := grantEnd_giveUp_mayGrant c c s
      exact ⟨by rw [hgrant.view_kept hr], (hgrant.quiet hr).1⟩
  · exact ⟨rfl, hr⟩

/-- A view that leaves a state keeps all but its causes, and no record (R23, R75). -/
theorem leave_view {c : Chan} {old : ViewState} {s : State} (hr : old ≠ .requesting → s.arb.request.get c = none) :
    (leave c old s).view c = { s.view c with causes := ((leave c old s).view c).causes }
      ∧ (leave c old s).arb.request.get c = none := by
  cases old with
  | requesting =>
    obtain ⟨hview, hrecord, -, -⟩ := withdrawRequest_quiet c s
    exact ⟨by simp only [leave, hview], hrecord⟩
  | positioned => exact giveUp_view (hr (by decide))
  | transferring => exact giveUp_view (hr (by decide))
  | detached | notReady | standby | deferred | faulted => exact ⟨rfl, hr (by decide)⟩

theorem giveUp_guards (c : Chan) (s : State) : Guards s (giveUp c s) :=
  (giveUp_decides c s).guards (giveUp_calm c s).raises

theorem leave_guards (c : Chan) (old : ViewState) (s : State) : Guards s (leave c old s) := by
  cases old with
  | requesting => exact (withdrawRequest_decides c s).guards (withdrawRequest_calm c s).raises
  | deferred => exact .of_same rfl
  | positioned | transferring => exact giveUp_guards c s
  | detached | notReady | standby | faulted => exact .refl s

/-- A view that leaves a state by its own cut, its chain removed with it: the view as set, but for its causes (R30, R39,
R127). -/
theorem leaveAndRemove_view {c : Chan} {old : ViewState} {v : View} {s : State}
    (hr : old ≠ .requesting → s.arb.request.get c = none) (hv : v.st ≠ .positioned) :
    let u := removeChain c (leave c old (setView c v s))
    u.view c = { v with causes := (u.view c).causes } ∧ u.arb.request.get c = none := by
  intro u
  obtain ⟨hview, hrecord⟩ := leave_view (c := c) (old := old) (s := setView c v s) hr
  rw [setView_view_self] at hview
  have hst : ((leave c old (setView c v s)).view c).st ≠ .positioned := by rw [hview]; exact hv
  have hgrant := removeChain_mayGrant hst
  have hkept : u.view c = (leave c old (setView c v s)).view c := hgrant.view_kept hrecord
  exact ⟨by rw [hkept]; exact hview, (hgrant.quiet hrecord).1⟩

theorem leaveAndRemove_guards {c : Chan} {v : View} {s : State} (old : ViewState)
    (h : v.causes.peerTornWrite = (s.view c).causes.peerTornWrite) :
    Guards s (removeChain c (leave c old (setView c v s))) :=
  ((guards_view h).trans (leave_guards c old _)).trans (removeChain_guards c _)

/-- A TRANSFERRING view without a record faulted: its target and selection stay (R30). -/
theorem enterFaulted_busy {c : Chan} {s : State} (h : Busy s c) (k : FaultCause) :
    let u := enterFaulted c k s
    (u.view c).st = .faulted ∧ (u.view c).fault = k ∧ (u.view c).target = (s.view c).target
      ∧ (u.view c).sel = (s.view c).sel ∧ Guards s u := by
  obtain ⟨hst, hr⟩ := h
  have hu : enterFaulted c k s =
      removeChain c (leave c (s.view c).st (setView c { s.view c with st := .faulted, fault := k } s)) := by
    simp [enterFaulted, hst]
  have hview := (leaveAndRemove_view (c := c) (old := (s.view c).st) (v := { s.view c with st := .faulted, fault := k })
    (s := s) (fun _ => hr) (by simp)).1
  rw [← hu] at hview
  simp only
  rw [hview]
  exact ⟨rfl, rfl, rfl, rfl, by rw [hu]; exact leaveAndRemove_guards _ rfl⟩

/-! ## An order during a gate -/

theorem orderDuringGate_eq {c : Chan} {s : State} {g : GateRecord} (h : s.relay.gate = some g) (n : Nat) (w : Carried) :
    orderDuringGate c n w s =
      raiseFor c .orderDuringGate g.addr.whole n (enterFaulted c .orderDuringGate (endGate .shortWrite w s)) := by
  simp only [orderDuringGate, h]

/-- An order at a view in TRANSFERRING is withheld, and cuts the gate (R3, R24, R25, R29). -/
theorem exec_orderInGate {c : Chan} {s : State} {i : Instr} {value bus : BitVec 10} {w : Carried}
    (h : TakesOrders s c) (hv : (s.view c).st = .transferring)
    (hi : i ∈ [Instr.cylinderOrder c value w, .headOrder c bus w]) :
    exec i s =
      .next (reportGateEnd (orderDuringGate c (if i = .headOrder c bus w then 1 else 0) w (strobed c s))) := by
  have hwithheld : withheldInGate c s = true := by simp [withheldInGate, hv]
  simp only [List.mem_cons, List.not_mem_nil, or_false] at hi
  rcases hi with rfl | rfl
  · simp [exec, execCylinderOrder, orderArrives_taken h, hwithheld, cylinderEffect, hv]
  · simp [exec, execHeadOrder, orderArrives_taken h, hwithheld, headEffect, hv]

/-- A gate that ends for a view in TRANSFERRING, and the view faulted by its cut (R29, R30, R109, R110). -/
structure CutFaulted (k : TearCause) (f : FaultCause) (e : ChanEvent) (n : Nat) (g : GateRecord) (w : Carried)
    (s u : State) : Prop where
  st       : (u.view g.chan).st = .faulted
  fault    : (u.view g.chan).fault = f
  target   : (u.view g.chan).target = (s.view g.chan).target
  sel      : (u.view g.chan).sel = (s.view g.chan).sel
  ack      : (u.port g.chan).ack = (s.port g.chan).ack
  judged   : GateJudged k g w s u
  readLow  : u.drive.readGate = false
  writeLow : u.drive.writeGate = false
  frame    : TouchesOnly (.port g.chan :: .mbox :: Part.reached) s u
  record   : Open (.chan g.chan e) s → Recorded (.chan g.chan e) n u

/-- An order during a gate: the cut, the fault, then E5 (R29). -/
theorem orderDuringGate_cut {s : State} {g : GateRecord} (h : s.relay.gate = some g) (hb : Busy s g.chan) (n : Nat)
    (w : Carried) :
    CutFaulted .shortWrite .orderDuringGate .orderDuringGate n g w s (orderDuringGate g.chan n w s) := by
  have hended := endGate_ended h .shortWrite w
  obtain ⟨hst, hfault, htarget, hsel, hguards⟩ := enterFaulted_busy (hended.busy g.chan hb) .orderDuringGate
  have hmoves := enterFaulted_moves g.chan .orderDuringGate (endGate .shortWrite w s)
  have hraise := raiseFor_raises (es := [.orderDuringGate]) (e := .orderDuringGate) (by decide) g.chan g.addr.whole n
    (enterFaulted g.chan .orderDuringGate (endGate .shortWrite w s))
  rw [orderDuringGate_eq h]
  refine ⟨hst, hfault, htarget.trans (by rw [hended.likened]), hsel.trans (by rw [hended.likened]), ?ack,
    (hended.judged.keep hguards).stands rfl rfl (fun _ => rfl) hraise (by decide), hguards.read.trans hended.readLow,
    hguards.write.trans hended.writeLow, ?frame, fun hopen => ?record⟩
  case ack =>
    have hport := hmoves.frame (.port g.chan) (by cases g.chan <;> decide)
    exact Eq.trans (congrArg (·.ack) hport) (hended.ack g.chan)
  case frame =>
    exact hended.frame.trans ((hmoves.frame.mono (by cases g.chan <;> decide)).trans
      ((touches_ev _ _).mono (by cases g.chan <;> decide)))
  case record =>
    exact recorded_raise _ _ _ _ _ (hguards.raises.spares_open (by decide) (hended.raises.spares_open (by decide) hopen))

theorem overrun_eq {s : State} {g : GateRecord} (h : s.relay.gate = some g) (w : Carried) :
    overrun w s =
      enterFaulted g.chan .gateOverrun
        (raiseFor g.chan .gateOverrun g.addr.whole (g.kind.code * 2 ^ 14 + wordsPassed w) (endGate .gateOverrun w s)) := by
  simp only [overrun, h]
  rfl

/-- A gate still up at the next sector start: the cut, E4, then the fault (R110). -/
theorem overrun_cut {s : State} {g : GateRecord} (h : s.relay.gate = some g) (hb : Busy s g.chan) (w : Carried) :
    CutFaulted .gateOverrun .gateOverrun .gateOverrun (g.kind.code * 2 ^ 14 + wordsPassed w) g w s (overrun w s) := by
  have hended := endGate_ended h .gateOverrun w
  let r := raiseFor g.chan .gateOverrun g.addr.whole (g.kind.code * 2 ^ 14 + wordsPassed w) (endGate .gateOverrun w s)
  have hraise : Raises [.gateOverrun] (endGate .gateOverrun w s) r := raiseFor_raises (by decide) _ _ _ _
  obtain ⟨hst, hfault, htarget, hsel, hguards⟩ := enterFaulted_busy (s := r) (hended.busy g.chan hb) .gateOverrun
  have hmoves := enterFaulted_moves g.chan .gateOverrun r
  have hjudged : GateJudged .gateOverrun g w s r := hended.judged.stands rfl rfl (fun _ => rfl) hraise (by decide)
  have hview : r.view g.chan = (endGate .gateOverrun w s).view g.chan := rfl
  rw [hview, hended.likened] at htarget hsel
  rw [overrun_eq h]
  refine ⟨hst, hfault, htarget, hsel, ?ack, hjudged.keep hguards, hguards.read.trans hended.readLow,
    hguards.write.trans hended.writeLow, ?frame, fun hopen => ?record⟩
  case ack =>
    have hport := hmoves.frame (.port g.chan) (by cases g.chan <;> decide)
    exact Eq.trans (congrArg (·.ack) hport) (hended.ack g.chan)
  case frame =>
    exact (hended.frame.trans ((touches_ev _ _).mono (by cases g.chan <;> decide))).trans
      (hmoves.frame.mono (by cases g.chan <;> decide))
  case record =>
    exact (recorded_raise _ _ _ _ _ (hended.raises.spares_open (by decide) hopen)).keep hmoves.events

/-! ## A sector start -/

theorem monitorStart_touches (k : StartKind) (s : State) : TouchesOnly [.watch, .ev] s (monitorStart k s) := by
  have hset : ∀ (x : Fin 24) (b : Bool) (t : State), TouchesOnly [.watch, .ev] t (setRotation x b t) :=
    fun _ _ t => (touches_watch t _).mono (by decide)
  have hraise : ∀ n, TouchesOnly [.watch, .ev] s (raiseSole .rotationFault .absent n s) :=
    fun n => (touches_ev s _).mono (by decide)
  unfold monitorStart
  simp only
  split
  · split
    · exact (hraise _).trans (hset _ _ _)
    · exact hset _ _ s
  · split
    · split
      · exact (hraise _).trans (hset _ _ _)
      · exact hset _ _ s
    · exact hset _ _ s

theorem monitorStart_spares (k : StartKind) (s : State) :
    Raises [] s (monitorStart k s) ∧ (monitorStart k s).watch.st = s.watch.st := by
  have hraise : ∀ n x b, Raises [] s (setRotation x b (raiseSole .rotationFault .absent n s)) :=
    fun n x b => (raiseSole_raises [] _ _ n s).trans (.of_ev _ rfl)
  unfold monitorStart
  simp only
  split
  · split
    · exact ⟨hraise _ _ _, rfl⟩
    · exact ⟨.of_ev _ rfl, rfl⟩
  · split
    · split
      · exact ⟨hraise _ _ _, rfl⟩
      · exact ⟨.of_ev _ rfl, rfl⟩
    · exact ⟨.of_ev _ rfl, rfl⟩

/-- A sector start relayed sets a slot protection mark and shows a pulse (R6, R21). -/
theorem relayStart_view (k : StartKind) (x d : Chan) (s : State) :
    (relayStart k x s).view d = { s.view d with slotProt := ((relayStart k x s).view d).slotProt } := by
  unfold relayStart
  simp only
  split
  · rw [setPort_view, setView_view]
    split
    · rename_i hd
      rw [hd]
    · rfl
  · rfl

theorem relayStart_guards (k : StartKind) (x : Chan) (s : State) : Guards s (relayStart k x s) := by
  have hcause : ∀ d, ((relayStart k x s).view d).causes.peerTornWrite = (s.view d).causes.peerTornWrite :=
    fun d => by rw [relayStart_view]
  unfold relayStart at hcause ⊢
  simp only at hcause ⊢
  split
  · rename_i hrelays
    simp only [hrelays, if_true] at hcause
    exact ⟨rfl, rfl, rfl, rfl, hcause, .of_ev _ rfl⟩
  · exact .refl s

theorem transferStart_touches (k : StartKind) (s : State) : TouchesOnly [.map, .drive] s (transferStart k s) := by
  have hmap : ∀ (x : Xfer) (t : State), TouchesOnly [.map, .drive] t (setXfer x t) :=
    fun x t => (touches_map t _).mono (by decide)
  unfold transferStart
  split
  · split
    · split
      · exact hmap _ s
      · exact ((touches_drive s _).mono (by decide)).trans (hmap _ _)
    · exact .refl _ s
  all_goals exact .refl _ s

theorem transferStart_writeGate (k : StartKind) (s : State) :
    (transferStart k s).drive.writeGate = s.drive.writeGate := by
  unfold transferStart
  split
  · split
    · split <;> rfl
    · rfl
  all_goals rfl

/-- What a sector start does past the monitor and the overrun: the judgement stands, and each view but for its slot
protection mark (R6, R21, R58). -/
theorem relayedStart_keeps {g : GateRecord} {w : Carried} {s t : State} (k : StartKind)
    (h : CutFaulted .gateOverrun .gateOverrun .gateOverrun (g.kind.code * 2 ^ 14 + wordsPassed w) g w s t) :
    let u := transferStart k (relayStart k .b (relayStart k .a t))
    (u.view g.chan).st = .faulted ∧ (u.view g.chan).fault = .gateOverrun
      ∧ (u.view g.chan).target = (s.view g.chan).target ∧ (u.view g.chan).sel = (s.view g.chan).sel
      ∧ GateJudged .gateOverrun g w s u ∧ u.drive.writeGate = false ∧ TouchesOnly Part.gated s u
      ∧ (Open (.chan g.chan .gateOverrun) s →
          Recorded (.chan g.chan .gateOverrun) (g.kind.code * 2 ^ 14 + wordsPassed w) u) := by
  intro u
  let r := relayStart k .b (relayStart k .a t)
  have hguards : Guards t r := (relayStart_guards k .a t).trans (relayStart_guards k .b _)
  have htouch : TouchesOnly [.map, .drive] r u := transferStart_touches k r
  have hview : u.view g.chan = { t.view g.chan with slotProt := (u.view g.chan).slotProt } := by
    have hu : u.view g.chan = r.view g.chan := htouch (.view g.chan) (by simp)
    rw [hu]
    simp only [r]
    rw [relayStart_view k .b, relayStart_view k .a]
  have hrelay : u.relay = r.relay := htouch .relay (by decide)
  have hev : u.ev = r.ev := htouch .ev (by decide)
  have hviews : ∀ d, u.view d = r.view d := fun d => htouch (.view d) (by simp)
  refine ⟨by rw [hview]; exact h.st, by rw [hview]; exact h.fault, by rw [hview]; exact h.target,
    by rw [hview]; exact h.sel, ?judged, ?write, ?frame, fun hopen => ?record⟩
  case judged =>
    exact (h.judged.keep hguards).stands (by rw [hrelay]) (by rw [hrelay]) (fun d => by rw [hviews])
      (Raises.of_ev [] hev) (by decide)
  case write => exact ((transferStart_writeGate k r).trans hguards.write).trans h.writeLow
  case frame =>
    exact (h.frame.mono (by cases g.chan <;> decide)).trans
      (((relayStart_moves k .a t).frame.trans (relayStart_moves k .b _).frame).trans (htouch.mono (by decide)))
  case record =>
    have hflag := hguards.raises.2 g.chan .gateOverrun (by decide)
    unfold Recorded
    rw [hev, hflag]
    exact h.record hopen

/-- Settles O19: the cut by an order, then the one by a sector start. -/
theorem gateCutFaultsView : Obligations.GateCutFaultsView := by
  intro c value bus k w s g ⟨hgate, hchan, hst, _, hhold⟩ hrequest
  subst hchan
  refine ⟨fun h i hi => ?order, fun _ => ?sector⟩
  case order =>
    have hstrobed : TouchesOnly [.view g.chan, .port g.chan] s (strobed g.chan s) := strobed_touches g.chan s
    have hbusy : Busy (strobed g.chan s) g.chan := ⟨by rw [strobed_view]; exact hst, hrequest⟩
    have hcut := orderDuringGate_cut (s := strobed g.chan s) hgate hbusy (if i = .headOrder g.chan bus w then 1 else 0) w
    have hwatch : (orderDuringGate g.chan (if i = .headOrder g.chan bus w then 1 else 0) w (strobed g.chan s)).watch.st ≠
        .supplyHold := by
      rw [show (orderDuringGate _ _ _ _).watch = _ from hcut.frame .watch (by simp [Part.reached])]
      exact hhold
    have he := exec_orderInGate h hst hi
    rw [reportGateEnd_not_hold hwatch] at he
    have hview := strobed_view g.chan s
    refine ⟨_, he, hcut.st, hcut.fault, hcut.target.trans (by rw [hview]), hcut.sel.trans (by rw [hview]),
      hcut.ack.trans ?ack, hcut.judged.before rfl rfl rfl ?state (Raises.of_ev _ rfl), hcut.readLow, hcut.writeLow,
      (hstrobed.mono ?_).trans hcut.frame, hcut.record⟩
    case ack => simpa [strobed] using h.2
    case state =>
      intro d
      by_cases hd : d = g.chan
      · rw [hd, hview]
      · rw [show (strobed g.chan s).view d = _ from hstrobed (.view d) (by simpa using hd)]
    cases g.chan <;> decide
  case sector =>
    have hmonitor := monitorStart_touches k s
    obtain ⟨hraises, hwatch⟩ := monitorStart_spares k s
    have hview : ∀ d, (monitorStart k s).view d = s.view d := fun d => hmonitor (.view d) (by simp)
    have hrelay : (monitorStart k s).relay = s.relay := hmonitor .relay (by decide)
    have harb : (monitorStart k s).arb = s.arb := hmonitor .arb (by decide)
    have hcut := overrun_cut (s := monitorStart k s) (g := g) (by rw [hrelay]; exact hgate)
      ⟨by rw [hview]; exact hst, by rw [harb]; exact hrequest⟩ w
    obtain ⟨hfaulted, hfault, htarget, hsel, hjudged, hwrite, hframe, hrecord⟩ := relayedStart_keeps k hcut
    have hhold' : (transferStart k (relayStart k .b (relayStart k .a (overrun w (monitorStart k s))))).watch.st ≠
        .supplyHold := by
      rw [show (transferStart _ _).watch = _ from hframe .watch (by decide), hwatch]
      exact hhold
    rw [hview] at htarget hsel
    refine ⟨_, congrArg Host.Outcome.next (reportGateEnd_not_hold hhold'), hfaulted, hfault, htarget, hsel,
      hjudged.before (by rw [hrelay]) (hmonitor .uptime (by decide)) (hmonitor .map (by decide))
        (fun d => by rw [hview]) hraises, hwrite, (hmonitor.mono (by decide)).trans (hframe.mono (by decide)),
      fun hopen => hrecord (hraises.spares_open (by decide) hopen)⟩

end Sys2Proof.Machine
end

section
/-! A loss of PRESENT (R39): the gate cut, the view detached, its chain removed and its grant given up; and the halt of a
supply hold that waited for the gate's end (R150). -/

namespace Sys2Proof.Machine

/-! ## The halt of a supply hold -/

/-- What the views becoming unusable at a halt leave (R37, R83, R101). -/
structure Lowered (s t : State) : Prop where
  view    : ∀ d, t.view d = s.view d
    ∨ ((s.view d).st ≠ .detached ∧ t.view d = { s.view d with st := .notReady, fault := .none })
  request : ∀ d, s.arb.request.get d = none → t.arb.request.get d = none
  usage   : t.arb.usage = s.arb.usage
  entries : ∀ d, entriesOf s d = [] → entriesOf t d = []
  chain   : ∀ d, s.ilock.chain.get d = none → t.ilock.chain.get d = none
  guards  : Guards s t
  frame   : TouchesOnly (.watch :: Part.reached) s t

theorem Lowered.refl (s : State) : Lowered s s :=
  ⟨fun _ => .inl rfl, fun _ => id, rfl, fun _ => id, fun _ => id, .refl s, .refl _ s⟩

theorem Lowered.trans {s t u : State} (h : Lowered s t) (k : Lowered t u) : Lowered s u := by
  refine ⟨fun d => ?_, fun d hd => k.request d (h.request d hd), k.usage.trans h.usage,
    fun d hd => k.entries d (h.entries d hd), fun d hd => k.chain d (h.chain d hd), h.guards.trans k.guards,
    h.frame.trans k.frame⟩
  have hfirst := h.view d
  rcases k.view d with hk | ⟨hst, hk⟩
  · rw [hk]
    exact hfirst
  · rcases hfirst with hf | ⟨hs, hf⟩
    · rw [hf] at hst hk
      exact .inr ⟨hst, hk⟩
    · rw [hf] at hk
      exact .inr ⟨hs, hk⟩

theorem Lowered.detached {s t : State} (h : Lowered s t) {d : Chan} (hd : (s.view d).st = .detached) :
    t.view d = s.view d := (h.view d).resolve_right fun hn => hn.1 hd

theorem Lowered.causes {s t : State} (h : Lowered s t) (d : Chan) : (t.view d).causes = (s.view d).causes := by
  rcases h.view d with hd | ⟨-, hd⟩ <;> rw [hd]

theorem haltPositioner_touches (s : State) : TouchesOnly [.pos, .drive] s (haltPositioner s) := by
  have hset : ∀ (d : DrivePort) (x : Positioner), TouchesOnly [.pos, .drive] s { s with drive := d, pos := x } :=
    fun d x => ((touches_drive s d).mono (by decide)).trans ((touches_pos _ x).mono (by decide))
  exact (hset _ _).trans ((offerNext_touches _).mono (by decide))

theorem haltPositioner_gates (s : State) :
    (haltPositioner s).drive.readGate = s.drive.readGate ∧ (haltPositioner s).drive.writeGate = s.drive.writeGate := by
  unfold haltPositioner
  simp only
  rw [(offerNext_decides _).drive]
  exact ⟨rfl, rfl⟩

theorem haltPositioner_lowered (s : State) : Lowered s (haltPositioner s) := by
  have htouch := haltPositioner_touches s
  have hview : ∀ d, (haltPositioner s).view d = s.view d := fun d => htouch (.view d) (by simp)
  have hrelay : (haltPositioner s).relay = s.relay := htouch .relay (by decide)
  have hilock : (haltPositioner s).ilock = s.ilock := htouch .ilock (by decide)
  have harb : (haltPositioner s).arb = s.arb := htouch .arb (by decide)
  obtain ⟨hread, hwrite⟩ := haltPositioner_gates s
  exact ⟨fun d => .inl (hview d), fun d => by rw [harb]; exact id, by rw [harb],
    fun d => by simp only [entriesOf, hilock]; exact id, fun d => by rw [hilock]; exact id,
    ⟨by rw [hrelay], by rw [hrelay], hread, hwrite, fun d => by rw [hview], .of_ev _ (htouch .ev (by decide))⟩,
    htouch.mono (by decide)⟩

theorem haltArbiter_lowered (s : State) : Lowered s (haltArbiter s) :=
  ⟨fun _ => .inl rfl, fun _ => id, rfl, fun _ => id, fun _ => id, .of_same rfl, (haltArbiter_moves s).frame.mono (by decide)⟩

theorem viewUnusable_lowered (c : Chan) (s : State) : Lowered s (viewUnusable c s) := by
  have hframe := (viewUnusable_moves c s).frame
  unfold viewUnusable at hframe ⊢
  by_cases hc : (s.view c).st = .detached
  · rw [if_pos hc]
    exact .refl s
  · rw [if_neg hc] at hframe ⊢
    refine ⟨fun d => ?view, fun d hd => ?request, rfl, fun _ => id, fun _ => id, ?guards, hframe.mono (by decide)⟩
    case view =>
      by_cases hd : d = c
      · subst hd
        exact .inr ⟨hc, by simp⟩
      · rw [eq_peer_of_ne hd]
        exact .inl (by cases c <;> rfl)
    case request =>
      by_cases hdc : d = c
      · simp [hdc, setDeferred, setView]
      · rw [eq_peer_of_ne hdc] at hd ⊢
        simpa [setDeferred, setView] using hd
    case guards =>
      let r : State := { s with arb := { s.arb with request := s.arb.request.set c none } }
      let v : View := { s.view c with st := .notReady, fault := .none }
      have hrecord : Guards s r := .of_same rfl
      have hview : Guards r (setView c v r) := guards_view rfl
      have hdeferred : Guards (setView c v r) (setDeferred c none (setView c v r)) := .of_same rfl
      exact hrecord.trans (hview.trans hdeferred)

theorem remove_lowered (test : Entry → Bool) (s : State) : Lowered s { s with ilock := s.ilock.remove test } := by
  refine ⟨fun _ => .inl rfl, fun _ => id, rfl, fun d hd => ?_, fun d hd => ?_, .of_same rfl,
    (touches_ilock s _).mono (by decide)⟩
  · simp only [entriesOf, Interlock.remove, List.filter_eq_nil_iff, List.mem_filter] at hd ⊢
    exact fun e he => hd e he.1
  · cases d <;> simp only [Interlock.remove, Pair.get, keepChain] at hd ⊢ <;> rw [hd, ite_self]

theorem viewsUnusable_lowered (s : State) : Lowered s (viewsUnusable s) := by
  have hnone : ∀ c, ((viewUnusable .b (viewUnusable .a s)).view c).st ≠ .deferred := by
    intro c
    rw [bothUnusable_st]
    split <;> simp
  unfold viewsUnusable
  simp only [removeEntries_not_deferred _ hnone]
  exact ((viewUnusable_lowered .a s).trans (viewUnusable_lowered .b _)).trans (remove_lowered _ _)

/-- The report of a gate's end, which may complete the entry to SUPPLY HOLD (R112, R150). -/
theorem reportGateEnd_lowered (s : State) : Lowered s (reportGateEnd s) := by
  unfold reportGateEnd
  split
  · have hwatch : Lowered s { s with watch := { s.watch with writeEndWait := false } } :=
      ⟨fun _ => .inl rfl, fun _ => id, rfl, fun _ => id, fun _ => id, .of_same rfl,
        (touches_watch s _).mono (by decide)⟩
    exact hwatch.trans ((haltArbiter_lowered _).trans ((haltPositioner_lowered _).trans (viewsUnusable_lowered _)))
  · exact .refl s

/-! ## The cut of a gate at a loss -/

/-- What a cut at a loss of PRESENT leaves for the detachment (R39, R109). -/
structure LossCut (c : Chan) (w : Carried) (s t : State) : Prop where
  likened  : Likened s t
  coherent : Coherent s c → Coherent t c
  raises   : Raises (.tornSector :: arbitrated) s t
  port     : ∀ d, t.port d = { s.port d with readData := (t.port d).readData }
  frame    : TouchesOnly (.port c :: .mbox :: Part.reached) s t
  attached : ∀ d, (s.view d).st ≠ .detached → (t.view d).st ≠ .detached
  ended    : ∀ g, s.relay.gate = some g → g.chan = c →
    GateJudged .presenceLost g w s t ∧ t.drive.readGate = false ∧ t.drive.writeGate = false

theorem cutAtLoss_none {c : Chan} {s : State} (h : ∀ g, s.relay.gate = some g → g.chan ≠ c) (w : Carried) :
    cutAtLoss c w s = s := by
  refine if_neg fun hn => ?_
  obtain ⟨g, hg, hc⟩ := Option.map_eq_some_iff.1 hn
  exact h g hg hc

theorem cutAtLoss_some {s : State} {g : GateRecord} (h : s.relay.gate = some g) (w : Carried) :
    cutAtLoss g.chan w s = endGate .presenceLost w s := if_pos (by simp [activeChan, h])

theorem cutAtLoss_cut (c : Chan) (w : Carried) (s : State) : LossCut c w s (cutAtLoss c w s) := by
  by_cases h : ∃ g, s.relay.gate = some g ∧ g.chan = c
  · obtain ⟨g, hg, rfl⟩ := h
    have hended := endGate_ended hg .presenceLost w
    rw [cutAtLoss_some hg]
    refine ⟨hended.likened, hended.coherent _, hended.raises, hended.port, hended.frame, (endGate_steady _ w s).attached,
      fun x hx _ => ?_⟩
    obtain rfl : g = x := Option.some.inj (hg.symm.trans hx)
    exact ⟨hended.judged, hended.readLow, hended.writeLow⟩
  · have hnone : ∀ g, s.relay.gate = some g → g.chan ≠ c := fun g hg hc => h ⟨g, hg, hc⟩
    rw [cutAtLoss_none hnone]
    exact ⟨fun _ => rfl, id, .refl _ s, fun _ => rfl, .refl _ s, fun _ => id, fun g hg hc => absurd hc (hnone g hg)⟩

/-- Without a full write into SHARED space a cut only marks (R109, R115, R119). -/
theorem endGate_marks {g : GateRecord} {w : Carried} {s : State} (h : s.relay.gate = some g) (hf : ¬FullShared g w)
    (k : TearCause) : Marks (dropped g w s) (endGate k w s) := by
  have hreport : ∀ t, reportInterlock (g.carry w) t = t := fun t => if_neg hf
  rw [endGate_eq h, hreport]
  exact (judgeGate_marks _ k _).trans (reportMailbox_posts _ _).marks

/-- A cut without a report to the Interlock Unit leaves the arbiter, and the states of the views (R109). -/
theorem cutAtLoss_quiet {c : Chan} {w : Carried} {s : State} (hf : ∀ g, s.relay.gate = some g → ¬FullShared g w) :
    (cutAtLoss c w s).arb = s.arb ∧ (∀ d, ((cutAtLoss c w s).view d).st = (s.view d).st)
      ∧ Raises marking s (cutAtLoss c w s) := by
  by_cases h : ∃ g, s.relay.gate = some g ∧ g.chan = c
  · obtain ⟨g, hg, rfl⟩ := h
    have hmarks := endGate_marks hg (hf g hg) .presenceLost
    have hdropped := dropped_touches g w s
    rw [cutAtLoss_some hg]
    refine ⟨Eq.trans (hmarks.frame .arb (by decide)) (hdropped .arb (by simp)), fun d => ?_,
      (Raises.of_ev _ (hdropped .ev (by simp))).trans hmarks.raises⟩
    rw [hmarks.view d, show (dropped g w s).view d = s.view d from hdropped (.view d) (by simp)]
  · rw [cutAtLoss_none fun g hg hc => h ⟨g, hg, hc⟩]
    exact ⟨rfl, fun _ => rfl, .refl _ s⟩

end Sys2Proof.Machine
end

section
/-! The detachment of a view (R39, R127): what it leaves at the arbiter and the Interlock Unit, and what the peer is told. -/

namespace Sys2Proof.Machine

/-! ## The grant given up -/

theorem toFree_usage (s : State) : (toFree s).arb.usage = s.arb.usage := by
  rw [toFree_eq, decideGrant_usage]
  rfl

/-- A grant given up is charged; one whose end was marked ends by the budget, with E24 (R75, R79, R86). -/
theorem giveUp_owner {c : Chan} {s : State} (h : s.arb.st = .owned c) :
    (giveUp c s).arb.usage = chargedUsage s.arb.usage c s.arb.held
      ∧ (s.arb.releasePending = true → Open (.chan c .budgetPreemption) s →
          Recorded (.chan c .budgetPreemption) s.arb.held (giveUp c s)) := by
  unfold giveUp
  rw [if_pos h]
  cases hpending : s.arb.releasePending with
  | true =>
    refine ⟨?_, fun _ hopen => ?_⟩
    · rw [if_pos rfl, toFree_usage,
        show (headAtGrantEnd c (preempt c (charge c s))).arb = (preempt c (charge c s)).arb from rfl, preempt_arb]
      rfl
    · have hev : (giveCause c .preempted (charge c s)).ev = s.ev := giveCause_ev c _ _
      have hrecorded : Recorded (.chan c .budgetPreemption) s.arb.held (preempt c (charge c s)) :=
        raiseFor_records (s := s) c .budgetPreemption .absent hev rfl hopen
      rw [if_pos rfl]
      exact hrecorded.keep (toFree_decides (headAtGrantEnd c (preempt c (charge c s)))).events
  | false =>
    rw [if_neg (by simp)]
    exact ⟨toFree_usage _, fun h => by simp at h⟩

/-- The peer of a view that gives up its grant stays, but for a grant (R71, R75). -/
theorem giveUp_peer (c : Chan) (s : State) :
    ((giveUp c s).view (peer c)).st = (s.view (peer c)).st ∨ ((giveUp c s).view (peer c)).st = .positioned := by
  have hgranted : ∀ {t u : State}, MayGrant (peer c) t u → (t.view (peer c)).st = (s.view (peer c)).st →
      (u.view (peer c)).st = (s.view (peer c)).st ∨ (u.view (peer c)).st = .positioned := by
    intro t u h hst
    rcases h.view with hv | ⟨-, hv⟩ <;> rw [hv]
    · exact .inl hst
    · exact .inr rfl
  unfold giveUp
  split
  · split
    · refine hgranted (toFree_mayGrant (peer c) _) ?_
      have hcause := (giveCause_marks c .preempted (charge c s)).view (peer c)
      exact Eq.trans (congrArg View.st hcause) rfl
    · exact hgranted (grantEnd_giveUp_mayGrant (peer c) c s) rfl
  · exact .inl rfl

/-- A chain removed while the peer is not DEFERRED releases nobody (R125). -/
theorem removeChain_quiet {c : Chan} {s : State} (h : (s.view (peer c)).st ≠ .deferred) :
    removeChain c s = withoutChain c s := by
  rw [removeChain_eq]
  split
  · rfl
  · exact if_neg h

/-! ## The detachment -/

theorem giveUp_steady (c : Chan) (s : State) : Steady s (giveUp c s) := by
  unfold giveUp
  split
  · split
    · exact (((charge_steady c s).trans (preempt_steady c _)).trans (headAtGrantEnd_steady c _)).trans (toFree_steady _)
    · exact grantEnd_steady c _ s
  · exact .refl s

theorem leave_steady (c : Chan) (old : ViewState) (s : State) : Steady s (leave c old s) := by
  cases old with
  | requesting => exact withdrawRequest_steady c s
  | deferred => exact .of_same rfl
  | positioned | transferring => exact giveUp_steady c s
  | detached | notReady | standby | faulted => exact .refl s

theorem removeChain_chain (c : Chan) (s : State) : (removeChain c s).ilock.chain.get c = none := by
  have hnone : (s.ilock.list.filter fun e => !decide (e.holder = c)).any (fun e => decide (e.holder = c)) = false := by
    rw [List.any_eq_false]
    intro e he
    simpa using (List.mem_filter.1 he).2
  rw [removeChain, removeEntries_chain, keepChain, hnone]
  rfl

/-- A view that has lost its controller, before its causes (R39). -/
def View.lost (v : View) : View := { v.withoutTarget with st := .detached, debounce := 0 }

/-- What a detachment leaves (R39, R127). -/
structure Detached (c : Chan) (s t : State) : Prop where
  view     : t.view c = { (s.view c).lost with causes := (t.view c).causes }
  request  : t.arb.request.get c = none
  entries  : entriesOf t c = []
  chain    : t.ilock.chain.get c = none
  guards   : Guards s t
  moves    : Moves Part.reached s t
  attached : (s.view (peer c)).st ≠ .detached → (t.view (peer c)).st ≠ .detached

theorem detachView_detached {c : Chan} {s : State} (h : Coherent s c) : Detached c s (detachView c s) := by
  have hdetach : detachView c s = removeChain c (leave c (s.view c).st (setView c (s.view c).lost s)) := rfl
  obtain ⟨hview, hrequest⟩ := leaveAndRemove_view (c := c) (old := (s.view c).st) (v := (s.view c).lost) (s := s)
    (fun hst => h.resolve_left hst) (by simp [View.lost])
  rw [← hdetach] at hview hrequest
  refine ⟨hview, hrequest, removeChain_entries c _, removeChain_chain c _, ?_, detachView_moves c s, fun hp => ?_⟩
  · rw [hdetach]
    exact leaveAndRemove_guards _ rfl
  · rw [hdetach]
    refine ((leave_steady c _ _).trans (removeEntries_steady _ _)).attached (peer c) ?_
    rw [setView_view_peer]
    exact hp

/-- A detachment of the owner gives up its grant, charged, and by the budget where its end was marked (R75, R79). -/
theorem detachView_owner {c : Chan} {s : State} (h : s.arb.st = .owned c)
    (hv : (s.view c).st = .positioned ∨ (s.view c).st = .transferring) (hp : (s.view (peer c)).st ≠ .deferred) :
    (detachView c s).arb.usage = chargedUsage s.arb.usage c s.arb.held
      ∧ (s.arb.releasePending = true → Open (.chan c .budgetPreemption) s →
          Recorded (.chan c .budgetPreemption) s.arb.held (detachView c s)) := by
  let r := setView c (s.view c).lost s
  have hleave : leave c (s.view c).st r = giveUp c r := by
    rcases hv with hv | hv <;> rw [hv] <;> rfl
  have hpeer : ((giveUp c r).view (peer c)).st ≠ .deferred := by
    have hr : (r.view (peer c)).st = (s.view (peer c)).st := by simp [r]
    rcases giveUp_peer c r with hst | hst <;> rw [hst]
    · rw [hr]; exact hp
    · decide
  have hdetach : detachView c s = withoutChain c (giveUp c r) := by
    rw [← removeChain_quiet hpeer, ← hleave]
    rfl
  rw [hdetach]
  exact giveUp_owner (s := r) h

/-! ## What is told -/

/-- The end of a loss of PRESENT: the event, the peer's cause, the lines inactive (R39). -/
def lossTold (c : Chan) (n : Nat) (s : State) : State :=
  let r := giveCause (peer c) .peerDetached (raiseFor c .presenceLost .absent n s)
  setPort c (r.port c).inactive r

theorem giveCause_touches (d : Chan) (k : Cause) (s : State) : TouchesOnly [.view d] s (giveCause d k s) := by
  unfold giveCause
  split
  · exact .refl _ s
  · exact touches_view d _ s

theorem lossTold_touches (c : Chan) (n : Nat) (s : State) :
    TouchesOnly [.view (peer c), .port c, .ev] s (lossTold c n s) :=
  ((touches_ev s _).mono (by simp)).trans
    (((giveCause_touches (peer c) .peerDetached (raiseFor c .presenceLost .absent n s)).mono (by simp)).trans
      ((touches_port c _ _).mono (by simp)))

theorem lossTold_torn (c d : Chan) (n : Nat) (s : State) :
    ((lossTold c n s).view d).causes.peerTornWrite = (s.view d).causes.peerTornWrite := by
  have hview : (lossTold c n s).view d = (giveCause (peer c) .peerDetached (raiseFor c .presenceLost .absent n s)).view d :=
    rfl
  rw [hview]
  unfold giveCause
  split
  · rfl
  · rw [setView_view]
    split
    · rename_i hd
      rw [hd]
      rfl
    · rfl

theorem lossTold_peer {c : Chan} {n : Nat} {s : State} (h : (s.view (peer c)).st ≠ .detached) :
    ((lossTold c n s).view (peer c)).causes.peerDetached = true := by
  have hgives := giveCause_gives (c := peer c) (k := .peerDetached) (s := raiseFor c .presenceLost .absent n s) h
  exact congrArg Causes.peerDetached hgives

theorem lossTold_ev (c : Chan) (n : Nat) (s : State) :
    (lossTold c n s).ev = (raiseFor c .presenceLost .absent n s).ev := giveCause_ev (peer c) .peerDetached _

theorem lossTold_port (c : Chan) (n : Nat) (s : State) : (lossTold c n s).port c = (s.port c).inactive := by
  have hport := giveCause_touches (peer c) .peerDetached (raiseFor c .presenceLost .absent n s) (.port c) (by simp)
  simp only [lossTold, setPort_port, if_true]
  exact congrArg Port.inactive hport

theorem losePresence_eq (c : Chan) (w : Carried) (s : State) :
    losePresence c w s = reportGateEnd (lossTold c (s.view c).st.code (detachView c (cutAtLoss c w s))) := rfl

/-! ## The loss of PRESENT -/

theorem Likened.selection {s t : State} (h : Likened s t) (d : Chan) :
    (t.view d).sel = (s.view d).sel ∧ (t.view d).seekError = (s.view d).seekError
      ∧ (t.view d).fault = (s.view d).fault := by
  rw [h d]
  exact ⟨rfl, rfl, rfl⟩

theorem exec_presenceLost {c : Chan} {s : State} (h : (s.view c).st ≠ .detached) (w : Carried) :
    exec (.presenceLost c w) s = .next (losePresence c w (setPort c { s.port c with present := false } s)) := by
  simp [exec, execPresenceLost, h]

/-- Settles O30: the cut, the detachment, what is told and the end of a supply hold's wait, in this order. -/
theorem presenceLostDetaches : Obligations.PresenceLostDetaches := by
  intro c w s hst hrequest
  let s₁ := setPort c { s.port c with present := false } s
  let x := cutAtLoss c w s₁
  let t := detachView c x
  let y := lossTold c (s.view c).st.code t
  have hu : losePresence c w s₁ = reportGateEnd y := losePresence_eq c w s₁
  have hline : TouchesOnly [.port c] s s₁ := touches_port c _ s
  have hcut : LossCut c w s₁ x := cutAtLoss_cut c w s₁
  have hcoherent : Coherent s₁ c := by
    by_cases hr : (s.view c).st = .requesting
    · exact .inl hr
    · exact .inr (hrequest hr)
  have hdetached : Detached c x t := detachView_detached (hcut.coherent hcoherent)
  have htold : TouchesOnly [.view (peer c), .port c, .ev] t y := lossTold_touches c _ t
  have hlow : Lowered y (reportGateEnd y) := reportGateEnd_lowered y
  have hloss : Raises [.presenceLost] t y := by
    have hraise := raiseFor_raises (es := [.presenceLost]) (e := .presenceLost) (by decide) c .absent (s.view c).st.code t
    rw [Raises, show y.ev = _ from lossTold_ev c _ t]
    exact hraise
  have hview : (reportGateEnd y).view c = { (x.view c).lost with causes := (t.view c).causes } := by
    have hy : y.view c = t.view c := htold (.view c) (by simp)
    have hkept : (reportGateEnd y).view c = y.view c := hlow.detached (by rw [hy, hdetached.view]; rfl)
    rw [hkept, hy]
    exact hdetached.view
  have harb : y.arb = t.arb := htold .arb (by simp)
  have hilock : y.ilock = t.ilock := htold .ilock (by simp)
  have hport : (reportGateEnd y).port c = (t.port c).inactive :=
    Eq.trans (hlow.frame (.port c) (by cases c <;> decide)) (lossTold_port c _ t)
  obtain ⟨hsel, hseekError, hfault⟩ := hcut.likened.selection c
  refine ⟨_, (exec_presenceLost hst w).trans (by rw [hu]), ?st, ?target, ?sel, ?seekError, ?fault, ?debounce, ?present,
    ?ack, ?bus, ?data, ?pulse, ?entries, ?chain, ?record, ?frame, fun hp => ?told, fun hopen => ?event,
    fun g hg hc => ?gate, fun ho hv hp hf => ?owner⟩
  case st => rw [hview]; rfl
  case target => rw [hview]; rfl
  case sel => rw [hview]; exact hsel
  case seekError => rw [hview]; exact hseekError
  case fault => rw [hview]; exact hfault
  case debounce => rw [hview]; rfl
  case present =>
    have hx : t.port c = x.port c := hdetached.moves.frame (.port c) (by cases c <;> decide)
    rw [hport, hx, hcut.port c]
    simp [Port.inactive, s₁]
  case ack => rw [hport]; rfl
  case bus => rw [hport]; rfl
  case data => rw [hport]; rfl
  case pulse => rw [hport]; rfl
  case entries =>
    refine hlow.entries c ?_
    simp only [entriesOf, hilock]
    exact hdetached.entries
  case chain =>
    refine hlow.chain c ?_
    rw [hilock]
    exact hdetached.chain
  case record =>
    refine hlow.request c ?_
    rw [harb]
    exact hdetached.request
  case frame =>
    refine (hline.mono ?_).trans ((hcut.frame.mono ?_).trans ((hdetached.moves.frame.mono ?_).trans
      ((htold.mono ?_).trans (hlow.frame.mono ?_)))) <;> cases c <;> decide
  case told =>
    have hattached : (t.view (peer c)).st ≠ .detached := hdetached.attached (hcut.attached (peer c) hp)
    rw [hlow.causes]
    exact lossTold_peer hattached
  case event =>
    have hopen' : Open (.chan c .presenceLost) t :=
      hdetached.guards.raises.spares_open (by decide) (hcut.raises.spares_open (by decide) hopen)
    have hrecorded := raiseFor_records (s := t) c .presenceLost .absent rfl (rfl : (s.view c).st.code = _) hopen'
    have hy : Recorded (.chan c .presenceLost) (s.view c).st.code y := by
      unfold Recorded
      rw [show y.ev = _ from lossTold_ev c _ t]
      exact hrecorded
    exact hy.keep (reportGateEnd_moves y).events
  case gate =>
    obtain ⟨hjudged, hread, hwrite⟩ := hcut.ended g hg hc
    have hrelay : y.relay = t.relay := htold .relay (by simp)
    have hdrive : y.drive = t.drive := htold .drive (by simp)
    have hstands : GateJudged .presenceLost g w s₁ y :=
      (hjudged.keep hdetached.guards).stands (by rw [hrelay]) (by rw [hrelay]) (fun d => lossTold_torn c d _ t) hloss
        (by decide)
    refine ⟨(hstands.keep hlow.guards).before rfl rfl rfl (fun _ => rfl) (.of_ev _ rfl), ?_, ?_⟩
    · rw [hlow.guards.read, hdrive, hdetached.guards.read, hread]
    · rw [hlow.guards.write, hdrive, hdetached.guards.write, hwrite]
  case owner =>
    obtain ⟨hxarb, hxst, hxraises⟩ := cutAtLoss_quiet (c := c) (s := s₁) hf
    have hxst' : ∀ d, (x.view d).st = (s.view d).st := hxst
    obtain ⟨husage, hbudget⟩ := detachView_owner (c := c) (s := x) (by rw [hxarb]; exact ho)
      (by rw [hxst']; exact hv) (by rw [hxst']; exact hp)
    rw [hxarb] at husage hbudget
    refine ⟨?_, fun hpending hopen => ?_⟩
    · rw [hlow.usage, harb]
      exact husage
    · have hrecorded := hbudget hpending (hxraises.spares_open (by decide) hopen)
      have hevents : Occurs t.ev y.ev := by
        rw [show y.ev = _ from lossTold_ev c _ t]
        exact (moves_raiseFor c _ _ _ t).events
      exact (hrecorded.keep hevents).keep (reportGateEnd_moves y).events

end Sys2Proof.Machine
end

section
/-! The gates of the Map Store's transfers, and the end of a transfer at the arbiter (R58, R59, R63, R82). -/

namespace Sys2Proof.Machine

/-! ## The rise of an internal gate -/

theorem relayStart_touches (k : StartKind) (c : Chan) (s : State) :
    TouchesOnly [.view c, .port c] s (relayStart k c s) := by
  unfold relayStart
  simp only
  split
  · exact ((touches_view c _ s).mono (by simp)).trans ((touches_port c _ _).mono (by simp))
  · exact .refl _ s

/-- The Map Store at the awaited start of sector 0: the window before a write, a read gate otherwise (R58, R59, R63). -/
theorem transferStart_awaited {k : StartKind} {v : Vol} {s : State} (hk : k ≠ .sector)
    (hx : s.map.xfer = .awaitSector v) :
    transferStart k s =
      if s.arb.queue.head? = some .mapWrite then setXfer (.window v) s
      else setXfer (.reading v false) { s with drive := { s.drive with readGate := true } } := by
  have hindex : StartKind.isIndex k = true := by
    cases k with
    | sector => exact absurd rfl hk
    | indexSector | index => rfl
  simp only [transferStart, hx, hindex, if_true]

/-- With no passed gate and no supply hold a sector start is counted, relayed and shown to the Map Store. -/
theorem exec_sectorStart_open {k : StartKind} {w : Carried} {s : State} (hg : s.relay.gate = none)
    (hh : s.watch.st ≠ .supplyHold) :
    exec (.sectorStart k w) s = .next (transferStart k (relayStart k .b (relayStart k .a (monitorStart k s)))) := by
  have hgate : (monitorStart k s).relay.gate = none := by
    rw [show (monitorStart k s).relay = s.relay from monitorStart_touches k s .relay (by decide)]
    exact hg
  have hrun : overrun w (monitorStart k s) = monitorStart k s := by simp only [overrun, hgate]
  have hwatch : (transferStart k (relayStart k .b (relayStart k .a (monitorStart k s)))).watch.st = s.watch.st := by
    rw [show (transferStart k _).watch = _ from transferStart_touches k _ .watch (by decide),
      show (relayStart k .b _).watch = _ from relayStart_touches k .b _ .watch (by decide),
      show (relayStart k .a _).watch = _ from relayStart_touches k .a _ .watch (by decide)]
    exact (monitorStart_spares k s).2
  simp only [exec, execSectorStart, hrun]
  rw [reportGateEnd_not_hold (by rw [hwatch]; exact hh)]

/-- Settles O34: the write gate at its own command, the others at the awaited start of sector 0. -/
theorem internalGateRises : Obligations.InternalGateRises := by
  intro v s
  refine ⟨fun hx => ?write, fun k w hk hx hg hh => ?start⟩
  case write => simp only [exec, execInternalWriteGateRise, hx]; rfl
  case start =>
    let t := relayStart k .b (relayStart k .a (monitorStart k s))
    have ht : TouchesOnly [.view .a, .view .b, .port .a, .port .b, .watch, .ev] s t :=
      ((monitorStart_touches k s).mono (by decide)).trans
        (((relayStart_touches k .a _).mono (by decide)).trans ((relayStart_touches k .b _).mono (by decide)))
    have hmap : t.map = s.map := ht .map (by decide)
    have harb : t.arb = s.arb := ht .arb (by decide)
    have hdrive : t.drive = s.drive := ht .drive (by decide)
    have hpos : t.pos = s.pos := ht .pos (by decide)
    have hend : transferStart k t = _ := transferStart_awaited hk (by rw [hmap]; exact hx)
    rw [harb] at hend
    refine ⟨_, exec_sectorStart_open hg hh, fun hq => ?window, fun hq => ?read, ?arb, ?pos⟩
    case window => rw [hend, if_pos hq]; exact ⟨by rw [setXfer_map, hmap], hdrive⟩
    case read =>
      rw [hend, if_neg hq]
      exact ⟨by rw [setXfer_map, hmap], show { t.drive with readGate := true } = _ by rw [hdrive]⟩
    case arb => exact Eq.trans (transferStart_touches k t .arb (by decide)) harb
    case pos => exact Eq.trans (transferStart_touches k t .pos (by decide)) hpos

end Sys2Proof.Machine
end

section
/-! The validation of map and label images: each reason V1 to V8 as the words of R52 to R57 have it, and the lowest one. -/

namespace Sys2Proof.Machine

/-! ## The lowest reason -/

/-- The first reason of a list in ascending order is the lowest that holds (R52). -/
theorem firstReason_iff : ∀ {l : List (Nat × Bool)}, l.Pairwise (fun x y => x.1 < y.1) →
    ∀ n, firstReason l = some n ↔ (n, true) ∈ l ∧ ∀ k, k < n → (k, true) ∉ l
  | [], _, n => by simp [firstReason]
  | (m, holds) :: rest, hs, n => by
    obtain ⟨hfirst, hrest⟩ := List.pairwise_cons.1 hs
    have hlt : ∀ k b, (k, b) ∈ rest → m < k := fun k b h => hfirst (k, b) h
    cases holds with
    | true =>
      simp only [firstReason, if_true, Option.some.injEq, List.mem_cons, Prod.mk.injEq, and_true, not_or]
      constructor
      · rintro rfl
        exact ⟨.inl rfl, fun k hk => ⟨Nat.ne_of_lt hk, fun h => absurd (hlt k _ h) (by omega)⟩⟩
      · rintro ⟨rfl | h, hlow⟩
        · rfl
        · exact absurd rfl (hlow m (hlt n _ h)).1
    | false =>
      simp only [firstReason, Bool.false_eq_true, if_false, List.mem_cons, Prod.mk.injEq, Bool.true_eq_false, and_false,
        false_or]
      exact firstReason_iff hrest n

theorem firstReason_lowest {l : List (Nat × Bool)} {mp lb : Option Image} (hs : l.Pairwise fun x y => x.1 < y.1)
    (h : ∀ k, (k, true) ∈ l ↔ Reason mp lb k) (n : Nat) : firstReason l = some n ↔ LowestReason mp lb n := by
  simp only [firstReason_iff hs, h]

/-! ## One image: check word and parameters -/

theorem imageSum_eq (img : Image) : imageSum img = (img.toList.map (·.toNat)).sum % 65536 := by
  rw [imageSum, List.sum_eq_foldl, List.foldl_map]

theorem paramsInRange_iff (img : Image) : paramsInRange img = true ↔ ParamsLawful img := by
  have hchan : ∀ p : Params, p.inRange = true ↔ 1 ≤ p.w ∧ p.w ≤ 15 ∧ 20 ≤ p.t ∧ p.t ≤ 2000 ∧ 2 ≤ p.l ∧ p.l ≤ 250
      ∧ (p.lw = 0 ∨ (50 ≤ p.lw ∧ p.lw ≤ 5000)) := fun p => by
    simp only [Params.inRange, Bool.and_eq_true, Bool.or_eq_true, decide_eq_true_iff, and_assoc]
  have htwo : ∀ P : Nat → Prop, (∀ k ∈ [2, 6], P k) ↔ P 2 ∧ P 6 := fun P => by simp
  simp only [paramsInRange, Bool.and_eq_true, hchan, decide_eq_true_iff, ParamsLawful, htwo, paramsOf, and_assoc]

/-! ## Entries -/

/-- The entries of the two channels, each with its channel. -/
def tagged (entries : Chan → List Extent) : List Claimed :=
  (entries .a).map (⟨.a, ·⟩) ++ (entries .b).map (⟨.b, ·⟩)

theorem entriesIn_map (m : Image) : entriesIn .f m = tagged (mapSection m) := rfl

theorem entriesIn_label (l : Image) : entriesIn .r l = tagged (labelSection l) := rfl

theorem exists_mem_tagged (entries : Chan → List Extent) (P : Extent → Prop) :
    (∃ x ∈ tagged entries, P x.ext) ↔ (∃ e ∈ entries .a, P e) ∨ ∃ e ∈ entries .b, P e := by
  simp only [tagged, List.mem_append, List.mem_map, or_and_right, exists_or, exists_exists_and_eq_and]

theorem malformed_iff (home : Vol) (e : Extent) : e.malformed home = true ↔ Malformed home e := by
  simp only [Extent.malformed, Malformed, Bool.and_eq_true, Bool.or_eq_true, beq_iff_eq, decide_eq_true_eq, or_assoc]
  refine and_congr_right fun _ => ?_
  by_cases hn : e.n = 0
  · simp [hn]
  · rw [show 408 < e.ls + e.n ↔ 407 < e.ls + e.n - 1 by omega, show 408 < e.ps + e.n ↔ 407 < e.ps + e.n - 1 by omega]

theorem unknownClass_iff (e : Extent) : e.unknownClass = true ↔ e.inUse = true ∧ 4 ≤ e.code := by
  simp [Extent.unknownClass]

theorem anyMalformed_iff (home : Vol) (entries : Chan → List Extent) :
    anyMalformed home entries = true ↔ ∃ x ∈ tagged entries, Malformed home x.ext := by
  simp only [anyMalformed, Bool.or_eq_true, List.any_eq_true, malformed_iff, exists_mem_tagged]

theorem anyUnknown_iff (entries : Chan → List Extent) :
    anyUnknown entries = true ↔ ∃ x ∈ tagged entries, x.ext.inUse = true ∧ 4 ≤ x.ext.code := by
  simp only [anyUnknown, Bool.or_eq_true, List.any_eq_true, unknownClass_iff,
    exists_mem_tagged entries fun e => e.inUse = true ∧ 4 ≤ e.code]

/-- The entries that V5, V6 and V7 judge (R52). -/
theorem judgedEntries_eq (home : Vol) (entries : Chan → List Extent) :
    judgedEntries home entries = (tagged entries).filter fun x => decide (Judged (home, x)) := by
  have hkeep : ∀ e : Extent, (e.inUse && !e.malformed home && !e.unknownClass) = decide (e.inUse = true ∧ e.code < 4
      ∧ ¬Malformed home e) := by
    intro e
    rw [Bool.eq_iff_iff, decide_eq_true_iff, Bool.and_eq_true, Bool.and_eq_true, Bool.not_eq_true', Bool.not_eq_true',
      ← Bool.not_eq_true, ← Bool.not_eq_true, malformed_iff, unknownClass_iff]
    by_cases hu : e.inUse = true
    · simp only [hu, true_and, Nat.not_le]
      exact And.comm
    · simp [hu]
  simp only [judgedEntries, tagged, List.filter_append, List.filter_map, hkeep]
  rfl

theorem judgedTogether_eq (mp lb : Option Image) :
    judgedTogether mp lb =
      (mp.toList.flatMap fun m => judgedEntries .f (mapSection m))
        ++ lb.toList.flatMap fun l => judgedEntries .r (labelSection l) := by
  cases mp <;> cases lb <;>
    simp [judgedTogether, entriesTogether, judgedEntries_eq, entriesIn_map, entriesIn_label, List.filter_map,
      Function.comp_def]

/-! ## Overlaps and mailbox rules -/

theorem anyPair_iff {related : Claimed → Claimed → Bool} {P : Claimed → Claimed → Prop}
    (h : ∀ x y, related x y = true ↔ P x y) : ∀ l, anyPair related l = true ↔ ¬l.Pairwise fun x y => ¬P x y
  | [] => by simp [anyPair]
  | x :: rest => by
    simp only [anyPair, Bool.or_eq_true, List.any_eq_true, h, anyPair_iff h rest, List.pairwise_cons, not_and_or]
    push Not
    rfl

/-- Where the relation is symmetric and no entry is related to itself, order does not matter. -/
theorem not_pairwise_iff_exists {P : Claimed → Claimed → Prop} (hirrefl : ∀ x, ¬P x x) (hsymm : ∀ x y, P x y → P y x)
    (l : List Claimed) : (¬l.Pairwise fun x y => ¬P x y) ↔ ∃ x ∈ l, ∃ y ∈ l, P x y := by
  rw [← not_iff_not, not_not]
  push Not
  refine ⟨fun h x hx y hy => ?_, fun h => ?_⟩
  · have : Std.Symm fun x y => ¬P x y := ⟨fun x y hxy hyx => hxy (hsymm y x hyx)⟩
    exact h.forall_of_forall (fun x _ => hirrefl x) hx hy
  · exact List.pairwise_of_forall_mem_list h

theorem spansMeet_iff (s n s' n' : Nat) : spansMeet s n s' n' = true ↔ SpansMeet s n s' n' := by
  simp [spansMeet, SpansMeet]

theorem logicalOverlap_iff (x y : Claimed) : logicalOverlap x y = true ↔ OverlapLogically x y := by
  simp only [logicalOverlap, OverlapLogically, Bool.and_eq_true, decide_eq_true_eq, spansMeet_iff, and_assoc]

theorem forbiddenOverlap_iff (x y : Claimed) : forbiddenOverlap x y = true ↔ OverlapPhysically x y := by
  simp only [forbiddenOverlap, OverlapPhysically, Claimed.mailbox, Bool.and_eq_true, Bool.or_eq_true,
    decide_eq_true_eq, spansMeet_iff, Bool.not_eq_true', beq_eq_false_iff_ne, beq_iff_eq, and_assoc]

theorem mailbox_eq (x : Claimed) : x.mailbox = decide (x.ext.code = 3) := by
  rw [Bool.eq_iff_iff, Claimed.mailbox, beq_iff_eq, decide_eq_true_iff]

/-- The mailbox rules, one by one (R57). -/
theorem mailboxBroken_iff (es : List Claimed) : mailboxBroken es = true ↔ MailboxRulesBroken es := by
  have hof : ∀ (c : Chan) (l : List Claimed),
      (l.filter fun x => decide (x.chan = c)).isEmpty = true ↔ ¬∃ x ∈ l, x.chan = c := fun c l => by
    simp [List.isEmpty_iff]
  have hplaces : ∀ x y : Claimed, (decide (x.chan ≠ y.chan) && x.ext.ps != y.ext.ps) = true ↔
      x.chan ≠ y.chan ∧ x.ext.ps ≠ y.ext.ps := fun x y => by simp
  have hneq : ∀ p q : Bool, (p != q) = true ↔ ¬(p = false ↔ q = false) := by decide
  simp only [mailboxBroken, MailboxRulesBroken, mailbox_eq, Bool.or_eq_true, anyPair_iff hplaces, hneq,
    ← Bool.not_eq_true, hof, decide_eq_true_eq, List.any_eq_true]
  rw [not_pairwise_iff_exists (fun x h => h.1 rfl) fun x y h => ⟨h.1.symm, h.2.symm⟩]
  simp only [not_not, List.exists_mem_cons_iff, List.not_mem_nil, false_and, exists_false, or_false, Bool.and_eq_true,
    Bool.not_eq_true', decide_eq_false_iff_not, decide_eq_true_eq, bne_iff_ne, or_assoc, and_assoc, ne_eq]

/-! ## The reasons of an image -/

/-- The reasons that judge entries together, 5 to 7, are those of R55 to R57. -/
theorem mem_entryReasons (k : Nat) (mp lb : Option Image) :
    (k, true) ∈ entryReasons (judgedTogether mp lb) ↔ k ∈ [5, 6, 7] ∧ Reason mp lb k := by
  have h5 := anyPair_iff logicalOverlap_iff (judgedTogether mp lb)
  have h6 := anyPair_iff forbiddenOverlap_iff (judgedTogether mp lb)
  have h7 := mailboxBroken_iff (judgedTogether mp lb)
  simp only [entryReasons, List.mem_cons, List.not_mem_nil, or_false, Prod.mk.injEq, eq_comm (a := true), h5, h6, h7]
  constructor
  · rintro (⟨rfl, h⟩ | ⟨rfl, h⟩ | ⟨rfl, h⟩) <;> exact ⟨by simp, h⟩
  · rintro ⟨rfl | rfl | rfl, h⟩
    · exact .inl ⟨rfl, h⟩
    · exact .inr (.inl ⟨rfl, h⟩)
    · exact .inr (.inr ⟨rfl, h⟩)

theorem reason_range {mp lb : Option Image} : ∀ {k : Nat}, Reason mp lb k → k ∈ [1, 2, 3, 4, 5, 6, 7, 8]
  | 0, h => h.elim
  | 1, _ | 2, _ | 3, _ | 4, _ | 5, _ | 6, _ | 7, _ | 8, _ => by decide
  | _ + 9, h => h.elim

/-- The reasons apart: those judged image by image, and those that judge entries together (R52). -/
theorem reason_cases (mp lb : Option Image) (k : Nat) :
    Reason mp lb k ↔ k = 1 ∧ Reason mp lb 1 ∨ k = 2 ∧ Reason mp lb 2 ∨ k = 3 ∧ Reason mp lb 3 ∨ k = 4 ∧ Reason mp lb 4
      ∨ (k ∈ [5, 6, 7] ∧ Reason mp lb k) ∨ k = 8 ∧ Reason mp lb 8 := by
  constructor
  · intro h
    have hk := reason_range h
    simp only [List.mem_cons, List.not_mem_nil, or_false] at hk ⊢
    rcases hk with rfl | rfl | rfl | rfl | rfl | rfl | rfl | rfl <;> simp [h]
  · rintro (⟨rfl, h⟩ | ⟨rfl, h⟩ | ⟨rfl, h⟩ | ⟨rfl, h⟩ | ⟨-, h⟩ | ⟨rfl, h⟩) <;> exact h

theorem reason_identity (mp lb : Option Image) :
    Reason mp lb 1 ↔ (∃ m ∈ mp.toList, imageWord m 0 ≠ 0x5A3C) ∨ ∃ l ∈ lb.toList, imageWord l 0 ≠ 0x3CA5 := .rfl

theorem reason_sum (mp lb : Option Image) : Reason mp lb 2 ↔ ∃ img ∈ mp.toList ++ lb.toList, ¬SumsToZero img := .rfl

theorem reason_params (mp lb : Option Image) : Reason mp lb 3 ↔ ∃ m ∈ mp.toList, ¬ParamsLawful m := .rfl

theorem reason_malformed (mp lb : Option Image) :
    Reason mp lb 4 ↔ ∃ x ∈ entriesTogether mp lb, Malformed x.1 x.2.ext := .rfl

theorem reason_unknown (mp lb : Option Image) :
    Reason mp lb 8 ↔ ∃ x ∈ entriesTogether mp lb, x.2.ext.inUse = true ∧ 4 ≤ x.2.ext.code := .rfl

/-- A map image is refused for the lowest reason that holds of it (R52). -/
theorem validateMap_iff (m : Image) (n : Nat) : validateMap m = some n ↔ LowestReason (some m) none n := by
  have hjudged : judgedEntries .f (mapSection m) = judgedTogether (some m) none := by simp [judgedTogether_eq]
  have h1 : (imageWord m 0 != 0x5A3C) = true ↔ Reason (some m) none 1 := by simp [reason_identity]
  have h2 : (imageSum m != 0) = true ↔ Reason (some m) none 2 := by simp [imageSum_eq, reason_sum]
  have h3 : (!paramsInRange m) = true ↔ Reason (some m) none 3 := by
    rw [Bool.not_eq_true', ← Bool.not_eq_true, paramsInRange_iff]
    simp only [reason_params, Option.toList_some, List.mem_singleton, exists_eq_left]
  have h4 : anyMalformed .f (mapSection m) = true ↔ Reason (some m) none 4 := by
    simp [anyMalformed_iff, reason_malformed, entriesTogether, entriesIn_map]
  have h8 : anyUnknown (mapSection m) = true ↔ Reason (some m) none 8 := by
    simp [anyUnknown_iff, reason_unknown, entriesTogether, entriesIn_map]
  refine firstReason_lowest (by simp [entryReasons]) (fun k => ?_) n
  rw [reason_cases, hjudged]
  simp only [List.mem_append, List.mem_cons, List.not_mem_nil, or_false, Prod.mk.injEq, eq_comm (a := true),
    mem_entryReasons, h1, h2, h3, h4, h8, or_assoc]

/-- The same for a label image, whose sector holds no parameters (R52). -/
theorem validateLabel_iff (l : Image) (n : Nat) : validateLabel l = some n ↔ LowestReason none (some l) n := by
  have hjudged : judgedEntries .r (labelSection l) = judgedTogether none (some l) := by simp [judgedTogether_eq]
  have h1 : (imageWord l 0 != 0x3CA5) = true ↔ Reason none (some l) 1 := by simp [reason_identity]
  have h2 : (imageSum l != 0) = true ↔ Reason none (some l) 2 := by simp [imageSum_eq, reason_sum]
  have h3 : ¬Reason none (some l) 3 := by simp [reason_params]
  have h4 : anyMalformed .r (labelSection l) = true ↔ Reason none (some l) 4 := by
    simp [anyMalformed_iff, reason_malformed, entriesTogether, entriesIn_label]
  have h8 : anyUnknown (labelSection l) = true ↔ Reason none (some l) 8 := by
    simp [anyUnknown_iff, reason_unknown, entriesTogether, entriesIn_label]
  refine firstReason_lowest (by simp [entryReasons]) (fun k => ?_) n
  rw [reason_cases, hjudged]
  simp only [List.mem_append, List.mem_cons, List.not_mem_nil, or_false, Prod.mk.injEq, eq_comm (a := true),
    mem_entryReasons, h1, h2, h3, h4, h8, or_assoc, and_false, false_or]

end Sys2Proof.Machine
end

section
/-! The ends of the Map Store's reads at start-up: the outcome, the next step of Drive Watch, the end of the transfer (R58,
R59, R82, R146, R149). -/

namespace Sys2Proof.Machine

/-! ## The outcome of a read -/

/-- A read of a volume's sector in full, without CHECK ERROR and under its header (R58, R59). -/
def Readable (v : Vol) (full e : Bool) (h : HeaderWords) : Prop :=
  full = true ∧ e = false ∧ h.w1 = 0x0000#16 ∧ h.w2 = headerWord2 v .h0 0

theorem headerWord2_map : headerWord2 .f .h0 0 = 0x0000#16 := by decide

theorem headerWord2_label : headerWord2 .r .h0 0 = 0x8000#16 := by decide

theorem readResult_valid {v : Vol} {full e : Bool} {h : HeaderWords} {data : Image} (hr : Readable v full e h)
    (hv : validateFor v data = none) : readResult v full e h data = .valid data := by
  obtain ⟨rfl, rfl, h1, h2⟩ := hr
  simp [readResult, headerMatches, h1, h2, hv]

theorem readResult_refused {v : Vol} {full e : Bool} {h : HeaderWords} {data : Image} {n : Nat}
    (hr : Readable v full e h) (hv : validateFor v data = some n) : readResult v full e h data = .failed n := by
  obtain ⟨rfl, rfl, h1, h2⟩ := hr
  simp [readResult, headerMatches, h1, h2, hv]

theorem readResult_unreadable {v : Vol} {full e : Bool} {h : HeaderWords} (hr : ¬Readable v full e h) (data : Image) :
    readResult v full e h data = .failed 0 := by
  rw [readResult, if_neg]
  simpa [Readable, headerMatches, and_assoc] using hr

theorem not_readable_iff (v : Vol) (full e : Bool) (h : HeaderWords) :
    ¬Readable v full e h ↔ full = false ∨ e = true ∨ h.w1 ≠ 0x0000#16 ∨ h.w2 ≠ headerWord2 v .h0 0 := by
  simp only [Readable, Classical.not_and_iff_not_or_not, Bool.not_eq_true, Bool.not_eq_false, ne_eq]

/-! ## The end of a transfer -/

/-- The part once the transfer at the head of the internal queue has ended, before the decision (R82). -/
def transferEnded (s : State) : State :=
  discardHeads .mapStore
    { s with arb := { s.arb with st := .free, awaited := none, queue := s.arb.queue.tail },
             map := { s.map with xfer := .none } }

theorem internalEnds_eq (s : State) : internalEnds s = decideGrant (transferEnded s) := rfl

theorem transferEnded_touches (s : State) : TouchesOnly [.map, .arb, .drive] s (transferEnded s) :=
  fun p hp => by
    cases p with
    | map | arb | drive => simp at hp
    | _ => rfl

/-- The end of an internal read (R58, R59, R82). -/
theorem exec_internalReadEnd {v : Vol} {full e : Bool} {h : HeaderWords} {data : Image} {s t : State}
    (hx : s.map.xfer = .reading v e)
    (ht : readOutcome v (readResult v full e h data) (dropDriveGates s) = t) (hw : t.watch.st ≠ .supplyHold) :
    exec (.internalReadEnd full h data) s = .next (decideGrant (transferEnded t)) := by
  have hwatch : (decideGrant (transferEnded t)).watch = t.watch :=
    Eq.trans (decideGrant_touches _ .watch (by decide)) (transferEnded_touches t .watch (by decide))
  simp only [exec, execInternalReadEnd, hx, ht, internalEnds_eq]
  rw [reportGateEnd_not_hold (by rw [hwatch]; exact hw)]

/-! ## The map read -/

theorem raiseSole_onlyRaises (e : SoleEvent) (p : PartAddr) (n : Nat) (s : State) :
    OnlyRaises [.sole e] s (raiseSole e p n s) :=
  onlyRaises_occurrence (r := ⟨(Flag.sole e).number, none, p, BitVec.ofNat 16 n, s.uptime⟩) rfl

theorem storeMap_touches (r : ReadResult) (s : State) : TouchesOnly [.map, .ev] s (storeMap r s) := by
  cases r with
  | valid img => exact (touches_map s _).mono (by decide)
  | failed n =>
    exact TouchesOnly.trans ((touches_map s _).mono (by decide)) ((touches_ev _ _).mono (by decide))

/-- The part once a map read's outcome is taken and the LABEL READ is queued behind it (R58, R67, R146). -/
def mapTaken (r : ReadResult) (s : State) : State :=
  { storeMap r s with
    watch := { s.watch with st := .readingLabel, mapOwed := false, gap := 0 },
    arb := { s.arb with queue := [.mapRead, .labelRead] } }

theorem mapReadOutcome_reading {r : ReadResult} {s : State} (hw : s.watch.st = .readingMap)
    (ha : s.arb.st = .internal) (hq : s.arb.queue = [.mapRead]) : mapReadOutcome r s = mapTaken r s := by
  have hwatch : (storeMap r s).watch = s.watch := storeMap_touches r s .watch (by decide)
  have harb : (storeMap r s).arb = s.arb := storeMap_touches r s .arb (by decide)
  have hnew : [InternalKind.mapRead].contains .labelRead = false := by decide
  have hroom : ¬2 ≤ [InternalKind.mapRead].length := by decide
  simp only [mapReadOutcome, enterReadingLabel, internalRefused, internalArrives, hwatch, harb, hw, ha, hq, hnew, hroom,
    if_true, decide_false, Bool.and_false, Bool.false_eq_true, if_false, mapTaken]
  rfl

theorem mapTaken_touches (r : ReadResult) (s : State) : TouchesOnly [.map, .ev, .watch, .arb] s (mapTaken r s) :=
  ((storeMap_touches r s).mono (by decide)).trans fun p hp => by
    cases p with
    | map | ev | watch | arb => simp at hp
    | _ => rfl

/-- Settles O35: the outcome taken, the LABEL READ queued, the transfer ended, the LABEL READ granted. -/
theorem InternalRead.mapReadOutcome : Obligations.MapReadOutcome := by
  intro full e h data s hx hw ha hq
  let r := readResult .f full e h data
  let d := dropDriveGates s
  let t := transferEnded (mapTaken r d)
  let u := decideGrant t
  have hd : TouchesOnly [.drive] s d := dropDriveGates_touches s
  have hwatch : d.watch = s.watch := hd .watch (by decide)
  have harb : d.arb = s.arb := hd .arb (by decide)
  have hmap : d.map = s.map := hd .map (by decide)
  have hev : d.ev = s.ev := hd .ev (by decide)
  have htaken : readOutcome .f r d = mapTaken r d :=
    mapReadOutcome_reading (by rw [hwatch]; exact hw) (by rw [harb]; exact ha) (by rw [harb]; exact hq)
  have hgrant : u = grantInternal t := decideGrant_queue (s := t) rfl (by simp [t, transferEnded, mapTaken, discardHeads])
  obtain ⟨huarb, hutouch⟩ := grantInternal_eq t
  have hudecides := grantInternal_decides t
  rw [← hgrant] at huarb hutouch hudecides
  have humap : u.map = { (storeMap r d).map with xfer := u.map.xfer } := hudecides.map
  have huev : u.ev = (storeMap r d).ev := hutouch .ev (by decide)
  have hreason : ∀ n, r = .failed n → u.map.mapState = .missing ∧ u.map.activeMap = .zero
      ∧ (Open (.sole .mapInvalid) s → Recorded (.sole .mapInvalid) n u) := by
    intro n hr
    rw [hr] at humap huev
    rw [humap]
    refine ⟨rfl, rfl, fun hopen => ?_⟩
    unfold Recorded
    rw [huev]
    exact recorded_raise _ _ _ n _ (show Open (.sole .mapInvalid) d by rw [Open, hev]; exact hopen)
  have hstored : (storeMap r d).map.labelState = s.map.labelState ∧ (storeMap r d).map.stagedMap = s.map.stagedMap := by
    rw [← hmap]
    cases r <;> exact ⟨rfl, rfl⟩
  refine ⟨u, exec_internalReadEnd hx htaken (by simp [mapTaken]), ?gate, ?watch, ?internal, ?queue, ?usage, ?last, ?label,
    ?staged, ?frame, fun hf he h1 h2 hv => ?active, fun n hf he h1 h2 hv => ?refused, fun hn => ?unreadable,
    validateMap_iff data⟩
  case gate =>
    have hdrive : (storeMap r d).drive = d.drive := storeMap_touches r d .drive (by decide)
    have hread : u.drive.readGate = (storeMap r d).drive.readGate := by rw [hudecides.drive]; rfl
    rw [hread, hdrive]
    exact (dropDriveGates_low s).1
  case watch => exact Eq.trans (hutouch .watch (by decide)) (by rw [← hwatch]; rfl)
  case internal => rw [huarb]
  case queue => rw [huarb]; rfl
  case usage => rw [huarb, ← harb]; rfl
  case last => rw [huarb, ← harb]; rfl
  case label => rw [humap]; exact hstored.1
  case staged => rw [humap]; exact hstored.2
  case frame =>
    exact (hd.mono (by decide)).trans (((mapTaken_touches r d).mono (by decide)).trans
      (((transferEnded_touches _).mono (by decide)).trans (hutouch.mono (by decide))))
  case active =>
    have hr : r = .valid data := readResult_valid ⟨hf, he, h1, by rw [h2, headerWord2_map]⟩ hv
    rw [hr] at humap huev
    rw [humap, huev]
    exact ⟨rfl, rfl, hev⟩
  case refused => exact hreason n (readResult_refused ⟨hf, he, h1, by rw [h2, headerWord2_map]⟩ hv)
  case unreadable =>
    have hbad : ¬Readable .f full e h := by rw [not_readable_iff, headerWord2_map]; exact hn
    exact hreason 0 (readResult_unreadable hbad data)

/-! ## The drive becomes usable -/

/-- A translation reads the active map, the label and Drive Watch alone (R19, R22, R49). -/
theorem translate_congr {s t : State} (hu : ∀ v, usableVol t v = usableVol s v)
    (he : ∀ c, t.map.extents c = s.map.extents c) (c : Chan) (v : Vol) (n : Nat) :
    translate t c v n = translate s c v n := by
  simp only [translate, hu, he]

theorem retranslated_congr {s t : State} (hu : ∀ v, usableVol t v = usableVol s v)
    (he : ∀ c, t.map.extents c = s.map.extents c) (c : Chan) (v : View) :
    retranslated t c v = retranslated s c v := by
  simp only [retranslated, translate_congr hu he]

/-- A translation made again keeps all of a view but its target, SEEK ERROR and slot protection (R37, R38). -/
theorem retranslated_same (s : State) (c : Chan) (v : View) :
    retranslated s c v =
      { v with target := (retranslated s c v).target, seekError := (retranslated s c v).seekError,
               slotProt := (retranslated s c v).slotProt } := by
  unfold retranslated
  split
  · rfl
  · split <;> rfl

theorem viewUsable_view (c d : Chan) (s : State) :
    (viewUsable c s).view d =
      if d = c ∧ (s.view c).st = .notReady then retranslated s c { s.view c with st := .standby } else s.view d := by
  unfold viewUsable
  by_cases h : (s.view c).st = .notReady <;> by_cases hd : d = c <;> simp [h, hd]

theorem viewUsable_touches (c : Chan) (s : State) : TouchesOnly [.view c] s (viewUsable c s) := by
  unfold viewUsable
  simp only
  split
  · exact touches_view c _ s
  · exact .refl _ s

theorem viewsUsable_touches (s : State) : TouchesOnly [.view .a, .view .b] s (viewsUsable s) :=
  ((viewUsable_touches .a s).mono (by decide)).trans ((viewUsable_touches .b _).mono (by decide))

/-- A view at a drive that becomes usable: out of NOT READY with its target translated again (R37). -/
theorem viewsUsable_view (s : State) (c : Chan) :
    (viewsUsable s).view c =
      if (s.view c).st = .notReady then retranslated s c { s.view c with st := .standby } else s.view c := by
  have hfirst := viewUsable_touches .a s
  have hmap : (viewUsable .a s).map = s.map := hfirst .map (by decide)
  have hwatch : (viewUsable .a s).watch = s.watch := hfirst .watch (by decide)
  have hb : (viewUsable .a s).view .b = s.view .b := hfirst (.view .b) (by decide)
  have husable : ∀ v, usableVol (viewUsable .a s) v = usableVol s v := fun v => by
    cases v <;> simp only [usableVol, usable, hmap, hwatch]
  have hagain := retranslated_congr (s := s) (t := viewUsable .a s) husable (by simp [hmap])
  unfold viewsUsable
  cases c <;> simp [viewUsable_view, hb, hagain]

theorem viewsUsable_st (s : State) (c : Chan) :
    ((viewsUsable s).view c).st = if (s.view c).st = .notReady then .standby else (s.view c).st := by
  rw [viewsUsable_view]
  split
  · rw [retranslated_same]
  · rfl

theorem viewsUsable_causes (s : State) (c : Chan) : ((viewsUsable s).view c).causes = (s.view c).causes := by
  rw [viewsUsable_view]
  split
  · rw [retranslated_same]
  · rfl

/-! ## The label read -/

/-- The part in RUNNING, before a drive that is usable is made known to the views (R61, R143, R146). -/
def atRunning (s : State) : State := refreshStaged { s with watch := { s.watch with st := .running, gap := 0 } }

theorem enterRunning_eq (s : State) :
    enterRunning s = if s.map.mapState = .valid then viewsUsable (atRunning s) else atRunning s := by
  have husable : usable (atRunning s) = true ↔ s.map.mapState = .valid := by
    rw [usable_iff]
    exact and_iff_right rfl
  by_cases h : s.map.mapState = .valid
  · rw [if_pos h]
    exact if_pos (husable.2 h)
  · rw [if_neg h]
    exact if_neg fun hu => h (husable.1 hu)

theorem atRunning_touches (s : State) : TouchesOnly [.map, .watch] s (atRunning s) :=
  fun p hp => by
    cases p with
    | map | watch => simp at hp
    | _ => rfl

/-- What the entry to RUNNING leaves: the staged images and the marks of the path taken aside, and the views where the
map is VALID (R37, R61, R146). -/
theorem enterRunning_entered (s : State) :
    TouchesOnly [.view .a, .view .b, .map, .watch] s (enterRunning s)
      ∧ (enterRunning s).watch = (atRunning s).watch ∧ (enterRunning s).map = (atRunning s).map
      ∧ (∀ c, ((enterRunning s).view c).causes = (s.view c).causes)
      ∧ ∀ c, ((enterRunning s).view c).st =
          if s.map.mapState = .valid ∧ (s.view c).st = .notReady then .standby else (s.view c).st := by
  rw [enterRunning_eq]
  by_cases h : s.map.mapState = .valid
  · have hviews := viewsUsable_touches (atRunning s)
    rw [if_pos h]
    refine ⟨((atRunning_touches s).mono (by decide)).trans (hviews.mono (by decide)), hviews .watch (by decide),
      hviews .map (by decide), viewsUsable_causes (atRunning s), fun c => ?_⟩
    simp only [viewsUsable_st, h, true_and]
    rfl
  · rw [if_neg h]
    refine ⟨(atRunning_touches s).mono (by decide), rfl, rfl, fun c => rfl, fun c => ?_⟩
    rw [if_neg fun hc => h hc.1]
    rfl

/-- A cause given to both views: a DETACHED one does not keep it (R41). -/
theorem giveBoth_view (k : Cause) (s : State) (c : Chan) :
    (giveCause .b k (giveCause .a k s)).view c =
      if (s.view c).st = .detached then s.view c
      else { s.view c with causes := (s.view c).causes.add k } := by
  have hview : ∀ (x : Chan) (t : State), (giveCause x k t).view c =
      if (t.view x).st = .detached ∨ c ≠ x then t.view c
      else { t.view c with causes := (t.view c).causes.add k } := fun x t => by
    unfold giveCause
    by_cases ht : (t.view x).st = .detached <;> by_cases hc : c = x <;> simp [ht, hc]
  have hb : (giveCause .a k s).view .b = s.view .b := giveCause_touches .a k s (.view .b) (by simp)
  rw [hview .b, hb, hview .a]
  cases c <;> simp

/-- The cartridge is found changed (R149). -/
theorem cartridgeChanged_valid (prior : Bool) (held : Option Image) (img : Image) :
    cartridgeChanged prior held (.valid img) = true ↔
      ¬(prior = true ∧ ∃ old, held = some old ∧ (img.toList.drop 1).take 33 = (old.toList.drop 1).take 33) := by
  cases prior <;> cases held <;> simp [cartridgeChanged, sameCartridge]

/-- The cartridge comparison, by its result (R149; log 13). -/
theorem compareCartridge_compared (r : ReadResult) (s : State) :
    let u := compareCartridge r s
    let changed := s.watch.labelReadDone = true ∧ cartridgeChanged s.watch.priorValid s.map.heldLabel r = true
    TouchesOnly [.view .a, .view .b, .ev] s u
      ∧ (∀ c, (u.view c).st = (s.view c).st)
      ∧ OnlyRaises [.sole .cartridgeChanged] s u
      ∧ (changed → (∀ c, (s.view c).st ≠ .detached →
            (u.view c).causes = { (s.view c).causes with cartridgeChanged := true })
          ∧ (Open (.sole .cartridgeChanged) s → Recorded (.sole .cartridgeChanged) r.serial u))
      ∧ (¬changed → u = s) := by
  intro u changed
  by_cases h : changed
  · let e := raiseSole .cartridgeChanged .absent r.serial s
    have hu : u = giveCause .b .cartridgeChanged (giveCause .a .cartridgeChanged e) :=
      if_pos (by rw [Bool.and_eq_true]; exact h)
    have hev : u.ev = e.ev := by rw [hu, giveCause_ev, giveCause_ev]
    have hraises : OnlyRaises [.sole .cartridgeChanged] s e := raiseSole_onlyRaises _ _ _ s
    refine ⟨?_, fun c => ?_, ?_, fun _ => ⟨fun c hc => ?_, fun hopen => ?_⟩, fun hn => absurd h hn⟩
    · rw [hu]
      exact ((touches_ev s _).mono (by decide)).trans (((giveCause_touches .a _ e).mono (by decide)).trans
        ((giveCause_touches .b _ _).mono (by decide)))
    · rw [hu, giveBoth_view]
      split <;> rfl
    · simpa only [OnlyRaises, hev] using hraises
    · rw [hu, giveBoth_view, if_neg (show ¬(e.view c).st = .detached from hc)]
      rfl
    · unfold Recorded
      rw [hev]
      exact recorded_raise _ _ _ _ s hopen
  · have hu : u = s := if_neg (by rw [Bool.and_eq_true]; exact h)
    rw [hu]
    exact ⟨.refl _ s, fun _ => rfl, ⟨rfl, rfl, fun _ _ => rfl⟩, fun hc => absurd hc h, fun _ => rfl⟩

theorem storeLabel_touches (r : ReadResult) (s : State) : TouchesOnly [.map, .ev] s (storeLabel r s) := by
  cases r with
  | valid img => exact (touches_map s _).mono (by decide)
  | failed n =>
    exact TouchesOnly.trans ((touches_map s _).mono (by decide)) ((touches_ev _ _).mono (by decide))

theorem storeLabel_onlyRaises (r : ReadResult) (s : State) : OnlyRaises [.sole .labelInvalid] s (storeLabel r s) := by
  cases r with
  | valid img => exact ⟨rfl, rfl, fun _ _ => rfl⟩
  | failed n => exact raiseSole_onlyRaises _ _ _ _

theorem OnlyRaises.trans {l : List Flag} {s t u : State} (h : OnlyRaises l s t) (k : OnlyRaises l t u) :
    OnlyRaises l s u := by
  obtain ⟨hrecord, halarm, hflag⟩ := h
  obtain ⟨krecord, kalarm, kflag⟩ := k
  refine ⟨krecord.trans hrecord, kalarm.trans halarm, fun f hf => ?_⟩
  have hst := hflag f hf
  rw [← hst] at hf ⊢
  exact kflag f hf

/-- A flag that is none of those raised stays as it is. -/
theorem OnlyRaises.spares {l : List Flag} {s t : State} (h : OnlyRaises l s t) {f : Flag} (hf : f ∉ l) :
    t.ev.record f = s.ev.record f := h.2.2 f (.inl hf)

theorem OnlyRaises.spares_open {l : List Flag} {s t : State} (h : OnlyRaises l s t) {f : Flag} (hf : f ∉ l)
    (ho : Open f s) : Open f t := by
  rw [Open, h.spares hf, h.1]
  exact ho

/-- The part once a label read's outcome is taken, before RUNNING is entered (R59, R149). -/
def labelTaken (r : ReadResult) (s : State) : State :=
  let t := storeLabel r (compareCartridge r s)
  { t with watch := { t.watch with labelOwed := false, labelReadDone := true } }

theorem labelReadOutcome_reading {r : ReadResult} {s : State} (hw : s.watch.st = .readingLabel) :
    labelReadOutcome r s = enterRunning (labelTaken r s) := by
  have hwatch : (labelTaken r s).watch.st = s.watch.st := by
    have hstore : (storeLabel r (compareCartridge r s)).watch = (compareCartridge r s).watch :=
      storeLabel_touches r _ .watch (by decide)
    have hcompare : (compareCartridge r s).watch = s.watch := (compareCartridge_compared r s).1 .watch (by decide)
    show (storeLabel r (compareCartridge r s)).watch.st = s.watch.st
    rw [hstore, hcompare]
  exact if_pos (hwatch.trans hw)

theorem storeLabel_map (r : ReadResult) (s : State) :
    (storeLabel r s).map.mapState = s.map.mapState ∧ (storeLabel r s).map.activeMap = s.map.activeMap := by
  cases r <;> exact ⟨rfl, rfl⟩

theorem storeLabel_failed {n : Nat} {s : State} (h : Open (.sole .labelInvalid) s) :
    Recorded (.sole .labelInvalid) n (storeLabel (.failed n) s) :=
  recorded_raise _ _ _ n { s with map := { s.map with labelState := .unlabelled } } h

/-- The end of the label read: what is touched, and what of the map store, the views and the events it leaves (R59). -/
structure LabelRead (r : ReadResult) (s u : State) : Prop where
  gate     : u.drive.readGate = false
  watch    : u.watch.st = .running ∧ u.watch.labelOwed = false
  arbiter  : u.arb.st = .free ∧ u.arb.queue = []
  map      : u.map.mapState = s.map.mapState ∧ u.map.activeMap = s.map.activeMap
  frame    : TouchesOnly [.view .a, .view .b, .map, .arb, .drive, .watch, .ev] s u
  leaves   : s.map.mapState = .valid → ∀ c, (s.view c).st = .notReady → (u.view c).st = .standby
  valid    : ∀ img, r = .valid img → u.map.labelState = .valid ∧ u.map.heldLabel = some img
  failed   : ∀ n, r = .failed n → u.map.labelState = .unlabelled ∧ u.map.heldLabel = s.map.heldLabel
    ∧ (Open (.sole .labelInvalid) s → Recorded (.sole .labelInvalid) n u)
  raises   : OnlyRaises [.sole .labelInvalid, .sole .cartridgeChanged] s u
  changed  : s.watch.labelReadDone = true → cartridgeChanged s.watch.priorValid s.map.heldLabel r = true →
    (∀ c, (s.view c).st ≠ .detached → (u.view c).causes = { (s.view c).causes with cartridgeChanged := true })
      ∧ (Open (.sole .cartridgeChanged) s → Recorded (.sole .cartridgeChanged) r.serial u)
  same     : ¬(s.watch.labelReadDone = true ∧ cartridgeChanged s.watch.priorValid s.map.heldLabel r = true) →
    (∀ c, (u.view c).causes = (s.view c).causes)
      ∧ u.ev.record (.sole .cartridgeChanged) = s.ev.record (.sole .cartridgeChanged)

theorem exec_labelReadEnd {full e : Bool} {h : HeaderWords} {data : Image} {s : State}
    (hx : s.map.xfer = .reading .r e) (hw : s.watch.st = .readingLabel) (hq : s.arb.queue = [.labelRead])
    (hrequest : s.arb.request = ⟨none, none⟩) :
    ∃ u, exec (.internalReadEnd full h data) s = .next u ∧ LabelRead (readResult .r full e h data) s u := by
  generalize hr : readResult .r full e h data = r
  let d := dropDriveGates s
  let x := compareCartridge r d
  let y := storeLabel r x
  let z := enterRunning (labelTaken r d)
  let u := transferEnded z
  have hd : TouchesOnly [.drive] s d := dropDriveGates_touches s
  have hdwatch : d.watch = s.watch := hd .watch (by decide)
  have hdmap : d.map = s.map := hd .map (by decide)
  have hdev : d.ev = s.ev := hd .ev (by decide)
  have hdview : ∀ c, d.view c = s.view c := fun c => hd (.view c) (by simp)
  have hdraises : OnlyRaises [] s d := by rw [OnlyRaises, hdev]; exact ⟨rfl, rfl, fun _ _ => rfl⟩
  have hcompared := compareCartridge_compared r d
  simp only [hdwatch, hdmap, hdview] at hcompared
  obtain ⟨hxframe, hxst, hxraises, hxchanged, hxsame⟩ := hcompared
  have hxmap : x.map = s.map := Eq.trans (hxframe .map (by decide)) hdmap
  have hyframe : TouchesOnly [.map, .ev] x y := storeLabel_touches r x
  have hyraises : OnlyRaises [.sole .labelInvalid] x y := storeLabel_onlyRaises r x
  have hyview : ∀ c, y.view c = x.view c := fun c => hyframe (.view c) (by simp)
  have hymap := storeLabel_map r x
  rw [hxmap] at hymap
  have hlabel : TouchesOnly [.watch] y (labelTaken r d) := touches_watch y _
  obtain ⟨hzframe, hzwatch, hzmap, hzcauses, hzst⟩ := enterRunning_entered (labelTaken r d)
  have hz : TouchesOnly [.view .a, .view .b, .map, .drive, .watch, .ev] s z :=
    (hd.mono (by decide)).trans ((hxframe.mono (by decide)).trans ((hyframe.mono (by decide)).trans
      ((hlabel.mono (by decide)).trans (hzframe.mono (by decide)))))
  have hzarb : z.arb = s.arb := hz .arb (by decide)
  have hev : u.ev = y.ev := Eq.trans (transferEnded_touches z .ev (by decide)) (hzframe .ev (by decide))
  have huqueue : u.arb.queue = [] := by
    show z.arb.queue.tail = []
    rw [hzarb, hq]
    rfl
  have hnobody : decideGrant u = u := by
    refine decideGrant_nobody huqueue fun c => ?_
    show z.arb.request.get c = none
    rw [hzarb, hrequest]
    cases c <;> rfl
  have hexec := exec_internalReadEnd (full := full) (h := h) (data := data) (t := z) hx
    (by rw [hr]; exact labelReadOutcome_reading (by rw [hdwatch]; exact hw)) (by rw [hzwatch]; simp [atRunning, refreshStaged])
  rw [hnobody] at hexec
  have humap : u.map.mapState = y.map.mapState ∧ u.map.activeMap = y.map.activeMap
      ∧ u.map.labelState = y.map.labelState ∧ u.map.heldLabel = y.map.heldLabel := by
    have hsame : u.map = { z.map with xfer := .none } := rfl
    rw [hsame, hzmap]
    exact ⟨rfl, rfl, rfl, rfl⟩
  have hcauses : ∀ c, (u.view c).causes = (x.view c).causes := fun c => by
    rw [← hyview]
    exact hzcauses c
  refine ⟨u, hexec, ?gate, ?watch, ⟨rfl, huqueue⟩, ?map, ?frame, fun hv c hc => ?leaves, fun img hi => ?taken,
    fun n hn => ?refused, ?raises, fun hdone hch => ?changed, fun hsame => ?same⟩
  case gate =>
    have hdrive : z.drive = d.drive :=
      ((hxframe.mono (by decide)).trans ((hyframe.mono (by decide)).trans ((hlabel.mono (by decide)).trans
        (hzframe.mono (m := [.view .a, .view .b, .map, .watch, .ev]) (by decide))))) .drive (by decide)
    show z.drive.readGate = false
    rw [hdrive]
    exact (dropDriveGates_low s).1
  case watch =>
    have huwatch : u.watch = _ := hzwatch
    rw [huwatch]
    exact ⟨rfl, rfl⟩
  case map => exact ⟨humap.1.trans hymap.1, humap.2.1.trans hymap.2⟩
  case frame => exact (hz.mono (by decide)).trans ((transferEnded_touches z).mono (by decide))
  case leaves =>
    refine (hzst c).trans (if_pos ⟨hymap.1.trans hv, ?_⟩)
    exact (congrArg View.st (hyview c)).trans ((hxst c).trans hc)
  case taken =>
    subst hi
    exact ⟨humap.2.2.1, humap.2.2.2⟩
  case refused =>
    subst hn
    refine ⟨humap.2.2.1, humap.2.2.2.trans (show x.map.heldLabel = _ by rw [hxmap]), fun hopen => ?_⟩
    unfold Recorded
    rw [hev]
    exact storeLabel_failed (hxraises.spares_open (by decide) (hdraises.spares_open (by simp) hopen))
  case raises =>
    have h := (hdraises.mono (m := [.sole .labelInvalid, .sole .cartridgeChanged]) (by simp)).trans
      ((hxraises.mono (by simp)).trans (hyraises.mono (by simp)))
    simpa only [OnlyRaises, hev] using h
  case changed =>
    obtain ⟨hgiven, hrecorded⟩ := hxchanged ⟨hdone, hch⟩
    refine ⟨fun c hc => (hcauses c).trans (hgiven c hc), fun hopen => ?_⟩
    unfold Recorded
    rw [hev, hyraises.spares (by decide)]
    exact hrecorded (hdraises.spares_open (by simp) hopen)
  case same =>
    have hx : x = d := hxsame hsame
    refine ⟨fun c => ?_, ?_⟩
    · rw [hcauses, hx, hdview]
    · rw [hev, hyraises.spares (by decide), hx, hdev]

/-- Settles O36: from what the read leaves for its outcome, by whether the sector was a good label. -/
theorem InternalRead.labelReadOutcome : Obligations.LabelReadOutcome := by
  intro full e h data s hx hw ha hq hrequest
  obtain ⟨u, hexec, hread⟩ := exec_labelReadEnd (full := full) (h := h) (data := data) hx hw hq hrequest
  have hreadable : full = true → e = false → h.w1 = 0x0000#16 → h.w2 = 0x8000#16 → Readable .r full e h :=
    fun hf he h1 h2 => ⟨hf, he, h1, by rw [h2, headerWord2_label]⟩
  obtain ⟨hwatch, howed⟩ := hread.watch
  obtain ⟨hfree, hqueue⟩ := hread.arbiter
  obtain ⟨hmap, hactive⟩ := hread.map
  refine ⟨u, hexec, hread.gate, hwatch, howed, hfree, hqueue, hmap, hactive, hread.frame, hread.leaves,
    fun hf he h1 h2 hv => hread.valid data (readResult_valid (hreadable hf he h1 h2) hv),
    fun n hf he h1 h2 hv => hread.failed n (readResult_refused (hreadable hf he h1 h2) hv),
    fun hn => hread.failed 0 (readResult_unreadable ?unreadable data), validateLabel_iff data, hread.raises, ?cartridge⟩
  case unreadable => rw [not_readable_iff, headerWord2_label]; exact hn
  case cartridge =>
    intro good same changed
    have hgood : good → readResult .r full e h data = .valid data := fun ⟨hf, he, h1, h2, hv⟩ =>
      readResult_valid (hreadable hf he h1 h2) hv
    have hbad : ¬good → ∃ n, readResult .r full e h data = .failed n := fun hg => by
      by_cases hr : Readable .r full e h
      · cases hv : validateLabel data with
        | none =>
          obtain ⟨hf, he, h1, h2⟩ := hr
          exact absurd ⟨hf, he, h1, h2.trans headerWord2_label, hv⟩ hg
        | some n => exact ⟨n, readResult_refused hr hv⟩
      · exact ⟨0, readResult_unreadable hr data⟩
    have hiff : changed ↔ s.watch.labelReadDone = true
        ∧ cartridgeChanged s.watch.priorValid s.map.heldLabel (readResult .r full e h data) = true := by
      by_cases hg : good
      · rw [hgood hg, cartridgeChanged_valid]
        simp only [changed, hg, not_true, true_and, false_and, or_false]
        rfl
      · obtain ⟨n, hn⟩ := hbad hg
        rw [hn]
        simp only [changed, hg, false_and, not_false_iff, true_and, false_or]
        rfl
    refine ⟨fun hch => ?_, fun hn => hread.same fun hc => hn (hiff.2 hc)⟩
    obtain ⟨hdone, hfound⟩ := hiff.1 hch
    obtain ⟨hgiven, hrecorded⟩ := hread.changed hdone hfound
    refine ⟨hgiven, fun hg hopen => ?_, fun hg hopen => ?_⟩
    · rw [hgood hg] at hrecorded
      exact hrecorded hopen
    · obtain ⟨n, hn⟩ := hbad hg
      rw [hn] at hrecorded
      exact hrecorded hopen

end Sys2Proof.Machine
end

section
/-! A map activation while the arbiter is INTERNAL (R38, R128): `Activating`, what its steps do beside the images. -/

namespace Sys2Proof.Machine

/-! ## The arbiter in INTERNAL -/

theorem requestArrives_internal {s : State} (h : s.arb.st = .internal) (c : Chan) (p : Place) :
    requestArrives c p s = withRequest c (some p) s := requestArrives_keeps (.inl h) p

theorem withdrawRequest_internal {s : State} (h : s.arb.st = .internal) (c : Chan) :
    withdrawRequest c s = withRequest c none s := by
  have hclaim : ¬((∃ k, s.arb.st = .claimed c k) ∧ s.pos.held ≠ none) := by
    rintro ⟨⟨k, hk⟩, -⟩
    exact nomatch h.symm.trans hk
  have hends : ¬(s.arb.st = .owned (peer c) ∧ s.arb.request.get c ≠ none ∧ s.arb.queue = []) := fun ho =>
    nomatch h.symm.trans ho.1
  rw [withdrawRequest_record hclaim]
  simp only [withoutRequest, hends, if_false]
  rfl

theorem giveUp_internal {s : State} (h : s.arb.st = .internal) (c : Chan) : giveUp c s = s :=
  if_neg (by rw [h]; exact nofun)

theorem judgeRelease_internal {s : State} (h : s.arb.st = .internal) : judgeRelease s = s := by
  rcases s with ⟨_, _, _, ⟨st⟩⟩
  obtain rfl : st = .internal := h
  rfl

/-! ## What an activation's steps do -/

/-- A view, its record and its deferred request set. -/
def channelSet (c : Chan) (v : View) (p q : Option Place) (s : State) : State :=
  setView c v
    { s with arb := { s.arb with request := s.arb.request.set c p },
             ilock := { s.ilock with deferred := s.ilock.deferred.set c q } }

/-- The events of the Interlock Unit at an activation: E21 and E22. -/
def activationFlags : List Flag :=
  [.chan .a .interlockYield, .chan .b .interlockYield, .sole .interlockAgedOut]

/-- What the steps of an activation that are not its own leave of a view: they may release it from deferral (R125). -/
def Spared (c : Chan) (s t : State) : Prop :=
  (t.view c = s.view c ∧ t.arb.request.get c = s.arb.request.get c
      ∧ ((s.view c).st ≠ .deferred → t.ilock.deferred.get c = s.ilock.deferred.get c))
    ∨ ((s.view c).st = .deferred ∧ t.view c = { s.view c with st := .requesting }
      ∧ t.ilock.deferred.get c = none)

/-- Steps of an activation that translate only views of these channels. -/
structure Activating (own : List Chan) (s t : State) : Prop where
  frame  : TouchesOnly [.view .a, .view .b, .arb, .ilock, .ev] s t
  arb    : t.arb = { s.arb with request := t.arb.request }
  raises : OnlyRaises activationFlags s t
  list   : ∀ e ∈ t.ilock.list, e ∈ s.ilock.list
  chain  : ∀ c stamp, t.ilock.chain.get c = some stamp → s.ilock.chain.get c = some stamp
  view   : ∀ c, t.view c = { s.view c with
    st := (t.view c).st, target := (t.view c).target, seekError := (t.view c).seekError,
    slotProt := (t.view c).slotProt }
  out    : ∀ c, ∀ k ∈ [ViewState.detached, .notReady], (t.view c).st = k ↔ (s.view c).st = k
  record : ∀ c, (s.view c).st ∉ [ViewState.requesting, .deferred] →
    (t.view c).st ∉ [ViewState.requesting, .deferred] ∧ t.arb.request.get c = s.arb.request.get c
      ∧ t.ilock.deferred.get c = s.ilock.deferred.get c
  spared : ∀ c, c ∉ own → Spared c s t

theorem Spared.refl (c : Chan) (s : State) : Spared c s s := .inl ⟨rfl, rfl, fun _ => rfl⟩

theorem Spared.trans {c : Chan} {s t u : State} (h : Spared c s t) (k : Spared c t u) : Spared c s u := by
  rcases h with ⟨hview, hrecord, hdeferred⟩ | ⟨hst, hview, hnone⟩ <;>
    rcases k with ⟨kview, krecord, kdeferred⟩ | ⟨kst, kview, knone⟩
  · exact .inl ⟨kview.trans hview, krecord.trans hrecord, fun hn =>
      (kdeferred (by rw [hview]; exact hn)).trans (hdeferred hn)⟩
  · exact .inr ⟨by rw [← hview]; exact kst, by rw [kview, hview], knone⟩
  · exact .inr ⟨hst, kview.trans hview, (kdeferred (by rw [hview]; simp)).trans hnone⟩
  · rw [hview] at kst
    exact nomatch kst

theorem Activating.refl (own : List Chan) (s : State) : Activating own s s where
  frame := .refl _ s
  arb := rfl
  raises := ⟨rfl, rfl, fun _ _ => rfl⟩
  list _ := id
  chain _ _ := id
  view _ := rfl
  out _ _ _ := .rfl
  record _ h := ⟨h, rfl, rfl⟩
  spared c _ := .refl c s

theorem Activating.trans {own : List Chan} {s t u : State} (h : Activating own s t) (k : Activating own t u) :
    Activating own s u where
  frame := h.frame.trans k.frame
  arb := by have a := k.arb; rw [h.arb] at a; exact a
  raises := h.raises.trans k.raises
  list e he := h.list e (k.list e he)
  chain c x hx := h.chain c x (k.chain c x hx)
  view c := by have a := k.view c; rw [h.view c] at a; exact a
  out c x hx := (k.out c x hx).trans (h.out c x hx)
  record c hc := by
    obtain ⟨hst, hrecord, hdeferred⟩ := h.record c hc
    obtain ⟨kst, krecord, kdeferred⟩ := k.record c hst
    exact ⟨kst, krecord.trans hrecord, kdeferred.trans hdeferred⟩
  spared c hc := (h.spared c hc).trans (k.spared c hc)

theorem Activating.mono {own more : List Chan} {s t : State} (h : Activating own s t) (hm : own ⊆ more) :
    Activating more s t := { h with spared := fun c hc => h.spared c fun ho => hc (hm ho) }

theorem Activating.internal {own : List Chan} {s t : State} (h : Activating own s t) (hi : s.arb.st = .internal) :
    t.arb.st = .internal := by
  rw [h.arb]
  exact hi

/-! ## Leaves -/

/-- A view set, with its record and its deferred request. -/
theorem activating_set {own : List Chan} {c : Chan} {v : View} {p q : Option Place} {s : State}
    (hv : v = { s.view c with
      st := v.st, target := v.target, seekError := v.seekError, slotProt := v.slotProt })
    (hout : ∀ k ∈ [ViewState.detached, .notReady], v.st = k ↔ (s.view c).st = k)
    (hrecord : (s.view c).st ∉ [ViewState.requesting, .deferred] →
      v.st ∉ [ViewState.requesting, .deferred] ∧ p = s.arb.request.get c ∧ q = s.ilock.deferred.get c)
    (hown : c ∉ own → Spared c s (channelSet c v p q s)) : Activating own s (channelSet c v p q s) where
  frame := fun x hx => by
    cases x with
    | view d => cases d <;> simp at hx
    | arb | ilock | ev => simp at hx
    | _ => rfl
  arb := rfl
  raises := ⟨rfl, rfl, fun _ _ => rfl⟩
  list _ := id
  chain _ _ := id
  view d := by
    simp only [channelSet, setView_view]
    split
    · rename_i hd
      rw [hd]
      exact hv
    · rfl
  out d k hk := by
    simp only [channelSet, setView_view]
    split
    · rename_i hd
      rw [hd]
      exact hout k hk
    · rfl
  record d hd := by
    simp only [channelSet, setView_view, setView_same, Pair.get_set]
    split
    · rename_i hdc
      subst hdc
      exact hrecord hd
    · exact ⟨hd, rfl, rfl⟩
  spared d hd := by
    by_cases hdc : d = c
    · subst hdc
      exact hown hd
    · refine .inl ⟨?_, ?_, fun _ => ?_⟩
      · simp only [channelSet, setView_view, hdc, if_false]
        rfl
      · simp [channelSet, Pair.get_set, hdc]
      · simp [channelSet, Pair.get_set, hdc]

theorem activating_raise {f : Flag} (hf : f ∈ activationFlags) (c : Option Chan) (p : PartAddr) (n : Nat) (s : State) :
    Activating [] s (raise f c p n s) where
  frame := (touches_ev s _).mono (by decide)
  arb := rfl
  raises := (onlyRaises_occurrence (f := f) rfl).mono (by simpa using hf)
  list _ := id
  chain _ _ := id
  view _ := rfl
  out _ _ _ := .rfl
  record _ h := ⟨h, rfl, rfl⟩
  spared c _ := .inl ⟨rfl, rfl, fun _ => rfl⟩

theorem activating_remove (test : Entry → Bool) (s : State) :
    Activating [] s { s with ilock := s.ilock.remove test } where
  frame := (touches_ilock s _).mono (by decide)
  arb := rfl
  raises := ⟨rfl, rfl, fun _ _ => rfl⟩
  list e he := List.mem_of_mem_filter he
  chain c x hx := by
    have hkeep : ∀ (l : List Entry) (d : Chan) (y : Option Stamp), keepChain l d y = some x → y = some x := by
      intro l d y h
      unfold keepChain at h
      split at h
      · exact h
      · exact nomatch h
    cases c <;> exact hkeep _ _ _ hx
  view _ := rfl
  out _ _ _ := .rfl
  record _ h := ⟨h, rfl, rfl⟩
  spared c _ := .inl ⟨rfl, rfl, fun _ => rfl⟩

theorem activating_free (s : State) (n : Nat) : Activating [] s { s with free := n } :=
  { Activating.refl [] s with
    frame := fun x _ => by cases x <;> rfl
    spared := fun _ _ => .inl ⟨rfl, rfl, fun _ => rfl⟩ }

/-! ## Releases and removals -/

/-- A release test at an INTERNAL arbiter: nothing, the place held anew, or a record alone (R65, R125). -/
theorem releaseTest_activating {c : Chan} {s : State} (hi : s.arb.st = .internal) :
    Activating [] s (releaseTest c s) := by
  by_cases hst : (s.view c).st = .deferred
  · have hreq : (s.view c).st ∈ [ViewState.requesting, .deferred] := by simp [hst]
    by_cases hb : blocked s c = true
    · have hset : releaseTest c s = channelSet c (s.view c) (s.arb.request.get c) (s.view c).place s := by
        rw [releaseTest, if_pos hst, if_pos hb]
        cases c <;> rfl
      rw [hset]
      refine activating_set rfl (fun _ _ => .rfl) (fun hn => absurd hreq hn) fun _ => .inl ⟨?_, ?_, fun hn => absurd hst hn⟩
      · simp [channelSet]
      · simp [channelSet]
    · have hset : releaseTest c s = channelSet c { s.view c with st := .requesting }
          ((s.view c).place.or (s.arb.request.get c)) none s := by
        rw [releaseTest, if_pos hst, if_neg hb]
        cases hp : (s.view c).place with
        | none =>
          simp only [letThrough, hp]
          cases c <;> rfl
        | some p =>
          rw [letThrough_eq hp, requestArrives_internal (s := setDeferred c none (setViewState c .requesting s)) hi]
          cases c <;> rfl
      rw [hset]
      refine activating_set rfl ?_ (fun hn => absurd hreq hn) fun _ => .inr ⟨hst, ?_, ?_⟩
      · simp [hst]
      · simp [channelSet]
      · simp [channelSet]
  · rw [releaseTest, if_neg hst]
    exact .refl [] s

theorem removeEntries_activating {s : State} (hi : s.arb.st = .internal) (test : Entry → Bool) :
    Activating [] s (removeEntries test s) := by
  have h := activating_remove test s
  have ha := h.trans (releaseTest_activating (c := .a) (h.internal hi))
  unfold removeEntries
  simp only
  split <;> split
  · exact ha.trans (releaseTest_activating (ha.internal hi))
  · exact h.trans (releaseTest_activating (h.internal hi))
  · exact ha
  · exact h

theorem yieldTo_activating {s : State} (hi : s.arb.st = .internal) (c : Chan) : Activating [] s (yieldTo c s) := by
  have hraise := activating_raise (f := .chan c .interlockYield) (by cases c <;> decide) (some c)
    (placeAddr ((s.view c).place.getD ⟨.f, 0⟩).vol ((s.view c).place.getD ⟨.f, 0⟩).cyl) (entriesOf s c).length s
  exact hraise.trans (removeEntries_activating (hraise.internal hi) _)

theorem foldl_activating {f : State → Entry → State} (h : ∀ e s, s.arb.st = .internal → Activating [] s (f s e)) :
    ∀ (l : List Entry) (s : State), s.arb.st = .internal → Activating [] s (l.foldl f s)
  | [], s, _ => .refl [] s
  | e :: l, s, hi => (h e s hi).trans (foldl_activating h l (f s e) ((h e s hi).internal hi))

theorem ageOne_activating (e : Entry) (s : State) (hi : s.arb.st = .internal) : Activating [] s (ageOne e s) := by
  have hraise := activating_raise (f := .sole .interlockAgedOut) (by decide) (some e.holder) (placeAddr e.vol e.cyl)
    e.sectors s
  exact hraise.trans (removeEntries_activating (hraise.internal hi) _)

theorem ageOut_activating {s : State} (hi : s.arb.st = .internal) (test : Entry → Bool) :
    Activating [] s (ageOut test s) := by
  unfold ageOut
  split
  · exact .refl [] s
  · exact (activating_free s _).trans (foldl_activating ageOne_activating _ _ hi)

theorem endChain_activating {s : State} (hi : s.arb.st = .internal) (c : Chan) : Activating [] s (endChain c s) := by
  unfold endChain
  split
  · exact .refl [] s
  · split
    · exact removeEntries_activating hi _
    · exact .refl [] s

/-- Pruning at an INTERNAL arbiter (R122, R128). -/
theorem pruneInterlocks_activating {s : State} (hi : s.arb.st = .internal) : Activating [] s (pruneInterlocks s) := by
  have hremove := removeEntries_activating hi fun e => !inSharedExtent s.map e
  have hage := hremove.trans (ageOut_activating (hremove.internal hi) fun _ => true)
  have ha := hage.trans (endChain_activating (hage.internal hi) .a)
  exact ha.trans (endChain_activating (ha.internal hi) .b)

/-! ## A view translated again -/

/-- A view whose target is kept on a new translation (R38). -/
structure Retargets (c : Chan) (t t' : Target) (s u : State) : Prop where
  target    : (u.view c).target = some t'
  seekError : (u.view c).seekError = (s.view c).seekError
  still     : (s.view c).st ∈ [ViewState.standby, .faulted] → (u.view c).st = (s.view c).st
  waits     : (s.view c).st ∈ [ViewState.requesting, .deferred] →
    (u.view c).st ∈ [ViewState.requesting, .deferred]
  stands    : (s.view c).st = .positioned →
    (u.view c).st = if t'.physical = t.physical then .positioned else .standby

/-- A view whose target does not translate (R24, R38). -/
structure Fails (c : Chan) (s u : State) : Prop where
  target    : (u.view c).target = none
  seekError : (u.view c).seekError = true
  st        : (u.view c).st = if (s.view c).st = .faulted then .faulted else .standby
  request   : (s.view c).st = .requesting ∨ s.arb.request.get c = none → u.arb.request.get c = none
  deferred  : (s.view c).st = .deferred ∨ s.ilock.deferred.get c = none → u.ilock.deferred.get c = none

/-- The states in which a view with a target has it translated again at an activation (R38). -/
def translated : List ViewState := [.standby, .requesting, .deferred, .positioned, .faulted]

/-- A REQUESTING or DEFERRED view that makes its request again at an INTERNAL arbiter sets its view and record, and may
yield (R23, R123, R126). -/
theorem makeRequest_internal {c : Chan} {s : State} {t : Target} (hi : s.arb.st = .internal)
    (ht : (s.view c).target = some t) (hst : (s.view c).st ∈ [ViewState.requesting, .deferred]) :
    ∃ k ∈ [ViewState.requesting, .deferred], ∃ p q,
      let u := channelSet c { s.view c with st := k } p q s
      makeRequest c s = u ∨ makeRequest c s = yieldTo c u := by
  let place : Place := ⟨(s.view c).sel.vol, t.physical⟩
  have hwait : (s.view c).waitAtRequest = (s.view c).wait := by
    simp only [List.mem_cons, List.not_mem_nil, or_false] at hst
    rcases hst with h | h <;> simp [View.waitAtRequest, h]
  cases hb : heldBy s (peer c) place with
  | false =>
    refine ⟨.requesting, by simp, some place, none, .inl ?_⟩
    rw [makeRequest_letThrough ht hb, requestArrives_internal (s := asRequesting c s) hi]
    simp only [asRequesting, hwait]
    cases c <;> rfl
  | true =>
    have hset : asDeferred c place s =
        channelSet c { s.view c with st := .deferred } (s.arb.request.get c) (some place) s := by
      simp only [asDeferred, hwait]
      cases c <;> rfl
    have hwithdraw : withdrawRequest c (asDeferred c place s) =
        channelSet c { s.view c with st := .deferred } none (some place) s := by
      rw [withdrawRequest_internal (s := asDeferred c place s) hi, hset]
      cases c <;> rfl
    simp only [List.mem_cons, List.not_mem_nil, or_false] at hst
    rcases hst with hst | hst
    · refine ⟨.deferred, by simp, none, some place, ?_⟩
      rw [makeRequest_withdraws ht hst hb, hwithdraw]
      by_cases hp : (s.view (peer c)).st = .deferred
      · exact .inr (if_pos hp)
      · exact .inl (if_neg hp)
    · refine ⟨.deferred, by simp, s.arb.request.get c, some place, ?_⟩
      rw [makeRequest_defers ht (by simp [hst]) hb, hset]
      by_cases hp : (s.view (peer c)).st = .deferred
      · exact .inr (if_pos hp)
      · exact .inl (if_neg hp)

theorem makeRequest_activating {c : Chan} {s : State} {t : Target} (hi : s.arb.st = .internal)
    (ht : (s.view c).target = some t) (hst : (s.view c).st ∈ [ViewState.requesting, .deferred]) :
    Activating [c] s (makeRequest c s)
      ∧ (makeRequest c s).view c = { s.view c with st := ((makeRequest c s).view c).st }
      ∧ ((makeRequest c s).view c).st ∈ [ViewState.requesting, .deferred] := by
  obtain ⟨k, hk, p, q, hu⟩ := makeRequest_internal hi ht hst
  have hset : Activating [c] s (channelSet c { s.view c with st := k } p q s) := by
    refine activating_set rfl (fun x hx => ?_) (fun hn => absurd hst hn) fun hn => absurd (List.mem_singleton_self c) hn
    simp only [List.mem_cons, List.not_mem_nil, or_false] at hk hx hst
    rcases hk with rfl | rfl <;> rcases hx with rfl | rfl <;> rcases hst with h | h <;> simp [h]
  have hview : (channelSet c { s.view c with st := k } p q s).view c = { s.view c with st := k } := by simp [channelSet]
  rcases hu with hu | hu <;> rw [hu]
  · exact ⟨hset, by rw [hview], by rw [hview]; exact hk⟩
  · have hyield := yieldTo_activating (hset.internal hi) c
    refine ⟨hset.trans (hyield.mono (by simp)), ?_⟩
    rcases hyield.spared c (by simp) with ⟨hsame, -⟩ | ⟨-, hreleased, -⟩
    · rw [hsame, hview]
      exact ⟨rfl, hk⟩
    · rw [hreleased, hview]
      exact ⟨rfl, by simp⟩

/-- A view, not REQUESTING or DEFERRED afterwards where it was not, set alone. -/
theorem setView_activating {c : Chan} {v : View} {s : State}
    (hv : v = { s.view c with
      st := v.st, target := v.target, seekError := v.seekError, slotProt := v.slotProt })
    (hst : v.st = (s.view c).st ∨ (s.view c).st ∈ translated ∧ v.st = .standby) :
    Activating [c] s (setView c v s) := by
  have hset : setView c v s = channelSet c v (s.arb.request.get c) (s.ilock.deferred.get c) s := by cases c <;> rfl
  rw [hset]
  refine activating_set hv (fun k hk => ?_) (fun hn => ⟨?_, rfl, rfl⟩) fun hn => absurd (List.mem_singleton_self c) hn
  · rcases hst with h | ⟨hold, h⟩
    · rw [h]
    · rw [h]
      simp only [List.mem_cons, List.not_mem_nil, or_false] at hk
      rcases hk with rfl | rfl
      · exact ⟨nofun, fun hd => by rw [hd] at hold; exact absurd hold (by decide)⟩
      · exact ⟨nofun, fun hd => by rw [hd] at hold; exact absurd hold (by decide)⟩
  · rcases hst with h | ⟨-, h⟩
    · rw [h]; exact hn
    · rw [h]; decide

/-- The failure of a translation at an INTERNAL arbiter (R24, R65). -/
theorem standbySeekError_internal {c : Chan} {s : State} (hi : s.arb.st = .internal) :
    standbySeekError c s =
      channelSet c { (s.view c).seekFailed with st := .standby }
        (if (s.view c).st = .requesting then none else s.arb.request.get c)
        (if (s.view c).st = .deferred then none else s.ilock.deferred.get c) s := by
  have hgive : ∀ r : State, r.arb = s.arb → giveUp c r = r := fun r hr => giveUp_internal (by rw [hr]; exact hi) c
  have hwithdraw : ∀ r : State, r.arb = s.arb → withdrawRequest c r = withRequest c none r := fun r hr =>
    withdrawRequest_internal (by rw [hr]; exact hi) c
  cases hst : (s.view c).st <;>
    simp only [standbySeekError, leave, hst, hgive, hwithdraw, setView_same, reduceCtorEq, if_true, if_false] <;>
    cases c <;> rfl

end Sys2Proof.Machine
end

section
/-! Both views at a map activation while the arbiter is INTERNAL (R38): their targets translated again. -/

namespace Sys2Proof.Machine

/-! ## One view -/

/-- A view whose target is mapped again at an activation: the target is taken, and where its place is another the view
makes its request again or goes to STANDBY (R38). -/
theorem viewAtActivation_mapped {c : Chan} {s : State} {t t' : Target} (hi : s.arb.st = .internal)
    (ht : (s.view c).target = some t) (hst : (s.view c).st ∈ translated)
    (hm : translate s c (s.view c).sel.vol t.logical = .mapped t') :
    viewAtActivation c s =
      if (s.view c).st ∈ [ViewState.standby, .faulted] ∨ t'.physical = t.physical then setTarget c t' s
      else if (s.view c).st = .positioned then setView c { s.view c with st := .standby, target := some t' } s
      else makeRequest c (setTarget c t' s) := by
  have hleave : leave c .positioned (setViewState c .standby (setTarget c t' s)) =
      setView c { s.view c with st := .standby, target := some t' } s := by
    refine Eq.trans (giveUp_internal (s := setViewState c .standby (setTarget c t' s)) hi c) ?_
    cases c <;> rfl
  have hagain : retranslated s c (s.view c) = { s.view c with target := some t' } := by
    simp only [retranslated, ht, hm]
  simp only [translated, List.mem_cons, List.not_mem_nil, or_false] at hst
  rcases hst with hst | hst | hst | hst | hst <;>
    simp only [viewAtActivation, hst, ht, hm, hagain, hleave] <;> simp [setTarget, hst]

/-- A view whose target is not mapped any more (R24, R38). -/
theorem viewAtActivation_unmapped {c : Chan} {s : State} {t : Target} (ht : (s.view c).target = some t)
    (hst : (s.view c).st ∈ translated)
    (hm : translate s c (s.view c).sel.vol t.logical ∈ [Translation.unusable, .unmapped]) :
    viewAtActivation c s =
      if (s.view c).st ∈ [ViewState.standby, .faulted] then setView c (s.view c).seekFailed s
      else standbySeekError c s := by
  have hagain : retranslated s c (s.view c) = (s.view c).seekFailed := by
    simp only [List.mem_cons, List.not_mem_nil, or_false] at hm
    rcases hm with hm | hm <;> simp only [retranslated, ht, hm]
  simp only [translated, List.mem_cons, List.not_mem_nil, or_false] at hst hm
  rcases hst with hst | hst | hst | hst | hst <;> rcases hm with hm | hm <;>
    simp only [viewAtActivation, hst, ht, hm, hagain] <;> simp

/-- A view without a target, or in another state, is left as it is (R38). -/
theorem viewAtActivation_idle {c : Chan} {s : State}
    (h : (s.view c).target = none ∨ (s.view c).st ∉ translated) : viewAtActivation c s = s := by
  cases hst : (s.view c).st <;> cases ht : (s.view c).target <;> simp [hst, ht, translated] at h <;>
    simp [viewAtActivation, hst, ht]

/-- What a translation again does to one view (R38). -/
structure Reactivates (c : Chan) (s u : State) : Prop where
  mapped   : ∀ t t', (s.view c).target = some t → (s.view c).st ∈ translated →
    translate s c (s.view c).sel.vol t.logical = .mapped t' → Retargets c t t' s u
  unmapped : ∀ t, (s.view c).target = some t → (s.view c).st ∈ translated →
    translate s c (s.view c).sel.vol t.logical ∈ [Translation.unusable, .unmapped] → Fails c s u

/-- The three outcomes of a translation against a view's target at an activation. -/
theorem reactivation_cases (c : Chan) (s : State) :
    (∃ t t', (s.view c).target = some t ∧ (s.view c).st ∈ translated
        ∧ translate s c (s.view c).sel.vol t.logical = .mapped t')
      ∨ (∃ t, (s.view c).target = some t ∧ (s.view c).st ∈ translated
        ∧ translate s c (s.view c).sel.vol t.logical ∈ [Translation.unusable, .unmapped])
      ∨ ((s.view c).target = none ∨ (s.view c).st ∉ translated) := by
  by_cases hst : (s.view c).st ∈ translated
  · cases ht : (s.view c).target with
    | none => exact .inr (.inr (.inl rfl))
    | some t =>
      cases hm : translate s c (s.view c).sel.vol t.logical with
      | mapped t' => exact .inl ⟨t, t', rfl, hst, hm⟩
      | unusable => exact .inr (.inl ⟨t, rfl, hst, by simp [hm]⟩)
      | unmapped => exact .inr (.inl ⟨t, rfl, hst, by simp [hm]⟩)
  · exact .inr (.inr (.inr hst))

/-- A target mapped again, at the view (R38). -/
theorem viewAtActivation_retargets {c : Chan} {s : State} {t t' : Target} (hi : s.arb.st = .internal)
    (ht : (s.view c).target = some t) (hst : (s.view c).st ∈ translated)
    (hm : translate s c (s.view c).sel.vol t.logical = .mapped t') :
    Activating [c] s (viewAtActivation c s) ∧ Retargets c t t' s (viewAtActivation c s) := by
  rw [viewAtActivation_mapped hi ht hst hm]
  have htarget : Activating [c] s (setTarget c t' s) := setView_activating rfl (.inl rfl)
  split
  next hstays =>
    refine ⟨htarget, ?_, ?_, fun _ => ?_, fun h => ?_, fun h => ?_⟩
    · simp [setTarget]
    · simp [setTarget]
    · simp [setTarget]
    · simpa [setTarget] using h
    · rcases hstays with hs | hp
      · rw [h] at hs
        exact absurd hs (by decide)
      · simp [setTarget, h, hp]
  next hmoves =>
    obtain ⟨hs, hp⟩ := not_or.1 hmoves
    split
    next hpos =>
      refine ⟨setView_activating rfl (.inr ⟨hst, rfl⟩), ?_, ?_, fun h => absurd h hs, fun h => ?_, fun _ => ?_⟩
      · simp
      · simp
      · rw [hpos] at h
        exact absurd h (by decide)
      · simp [hp]
    next hpos =>
      have hreq : (s.view c).st ∈ [ViewState.requesting, .deferred] := by
        simp only [translated, List.mem_cons, List.not_mem_nil, or_false, not_or] at hst hs ⊢
        rcases hst with h | h | h | h | h
        · exact absurd h hs.1
        · exact .inl h
        · exact .inr h
        · exact absurd h hpos
        · exact absurd h hs.2
      have hview : (setTarget c t' s).view c = { s.view c with target := some t' } := by simp [setTarget]
      obtain ⟨hact, hsame, hwaits⟩ := makeRequest_activating (c := c) (s := setTarget c t' s) hi
        (by rw [hview]) (by rw [hview]; exact hreq)
      rw [hview] at hsame
      refine ⟨htarget.trans hact, ?_, ?_, fun h => absurd h hs, fun _ => hwaits, fun h => absurd h hpos⟩
      · rw [hsame]
      · rw [hsame]

/-- A target not mapped any more, at the view (R24, R38). -/
theorem viewAtActivation_fails {c : Chan} {s : State} {t : Target} (hi : s.arb.st = .internal)
    (ht : (s.view c).target = some t) (hst : (s.view c).st ∈ translated)
    (hm : translate s c (s.view c).sel.vol t.logical ∈ [Translation.unusable, .unmapped]) :
    Activating [c] s (viewAtActivation c s) ∧ Fails c s (viewAtActivation c s) := by
  rw [viewAtActivation_unmapped ht hst hm]
  split
  next hstays =>
    refine ⟨setView_activating rfl (.inl rfl), ?_, ?_, ?_, fun h => ?_, fun h => ?_⟩
    · simp [View.seekFailed, View.withoutTarget]
    · simp [View.seekFailed]
    · simp only [List.mem_cons, List.not_mem_nil, or_false] at hstays
      rcases hstays with h | h <;> simp [View.seekFailed, View.withoutTarget, h]
    · refine Or.resolve_left h fun hr => ?_
      rw [hr] at hstays
      exact absurd hstays (by decide)
    · refine Or.resolve_left h fun hr => ?_
      rw [hr] at hstays
      exact absurd hstays (by decide)
  next hleaves =>
    have hnotFaulted : (s.view c).st ≠ .faulted := fun h => hleaves (by simp [h])
    rw [standbySeekError_internal hi]
    refine ⟨activating_set rfl (fun k hk => ?_) (fun hn => ⟨?_, ?_⟩) (fun hn => absurd (List.mem_singleton_self c) hn),
      ?_, ?_, ?_, fun h => ?_, fun h => ?_⟩
    · simp only [List.mem_cons, List.not_mem_nil, or_false] at hk
      rcases hk with rfl | rfl <;>
        exact ⟨nofun, fun hd => by rw [hd] at hst; exact absurd hst (by decide)⟩
    · simp
    · simp only [List.mem_cons, List.not_mem_nil, or_false, not_or] at hn
      exact ⟨if_neg hn.1, if_neg hn.2⟩
    · simp [channelSet, View.seekFailed, View.withoutTarget]
    · simp [channelSet, View.seekFailed]
    · simp [channelSet, hnotFaulted]
    · rcases h with h | h <;> simp [channelSet, h]
    · rcases h with h | h <;> simp [channelSet, h]

theorem viewAtActivation_reactivates {c : Chan} {s : State} (hi : s.arb.st = .internal) :
    Activating [c] s (viewAtActivation c s) ∧ Reactivates c s (viewAtActivation c s) := by
  refine ⟨?_, fun t t' ht hst hm => (viewAtActivation_retargets hi ht hst hm).2,
    fun t ht hst hm => (viewAtActivation_fails hi ht hst hm).2⟩
  rcases reactivation_cases c s with ⟨t, t', ht, hst, hm⟩ | ⟨t, ht, hst, hm⟩ | hidle
  · exact (viewAtActivation_retargets hi ht hst hm).1
  · exact (viewAtActivation_fails hi ht hst hm).1
  · rw [viewAtActivation_idle hidle]
    exact .refl _ s

/-- A view that makes no request leaves the Interlock Unit as it is. -/
theorem viewAtActivation_ilock {c : Chan} {s : State} (hi : s.arb.st = .internal)
    (hn : (s.view c).st ∉ [ViewState.requesting, .deferred]) : (viewAtActivation c s).ilock = s.ilock := by
  simp only [List.mem_cons, List.not_mem_nil, or_false, not_or] at hn
  rcases reactivation_cases c s with ⟨t, t', ht, hst, hm⟩ | ⟨t, ht, hst, hm⟩ | hidle
  · rw [viewAtActivation_mapped hi ht hst hm]
    split
    · rfl
    · split
      · rfl
      next hstays hpos =>
        simp only [translated, List.mem_cons, List.not_mem_nil, or_false] at hst hstays
        tauto
  · rw [viewAtActivation_unmapped ht hst hm]
    split
    · rfl
    · rw [standbySeekError_internal hi]
      simp only [hn.1, hn.2, if_false]
      cases c <;> rfl
  · rw [viewAtActivation_idle hidle]

/-! ## Both views -/

/-- An activation's steps leave the translations as they are. -/
theorem Activating.translate {own : List Chan} {s t : State} (h : Activating own s t) (c : Chan) (v : Vol) (n : Nat) :
    translate t c v n = translate s c v n := by
  have hmap : t.map = s.map := h.frame .map (by decide)
  have hwatch : t.watch = s.watch := h.frame .watch (by decide)
  refine translate_congr (fun w => ?_) (fun d => by rw [hmap]) c v n
  cases w <;> simp only [usableVol, usable, hmap, hwatch]

/-- The view's step after steps that are not its own. -/
theorem Reactivates.after {own : List Chan} {c : Chan} {s t u : State} (h : Reactivates c t u)
    (k : Activating own s t) (hc : c ∉ own) : Reactivates c s u := by
  have htranslate := k.translate
  rcases k.spared c hc with ⟨hview, hrecord, hdeferred⟩ | ⟨hst, hview, hnone⟩
  · refine ⟨fun x x' hx hs hm => ?_, fun x hx hs hm => ?_⟩
    · obtain ⟨h1, h2, h3, h4, h5⟩ := h.mapped x x' (by rw [hview]; exact hx) (by rw [hview]; exact hs)
        (by rw [htranslate, hview]; exact hm)
      rw [hview] at h2 h3 h4 h5
      exact ⟨h1, h2, h3, h4, h5⟩
    · obtain ⟨h1, h2, h3, h4, h5⟩ := h.unmapped x (by rw [hview]; exact hx) (by rw [hview]; exact hs)
        (by rw [htranslate, hview]; exact hm)
      rw [hview] at h3 h4 h5
      rw [hrecord] at h4
      refine ⟨h1, h2, h3, h4, fun hd => h5 ?_⟩
      by_cases hdef : (s.view c).st = .deferred
      · exact .inl hdef
      · exact .inr ((hdeferred hdef).trans (hd.resolve_left hdef))
  · have htrans : (t.view c).st ∈ translated := by simp [hview, translated]
    refine ⟨fun x x' hx hs hm => ?_, fun x hx hs hm => ?_⟩
    · obtain ⟨h1, h2, -, h4, -⟩ := h.mapped x x' (by rw [hview]; exact hx) htrans
        (by rw [htranslate, hview]; exact hm)
      rw [hview] at h2 h4
      refine ⟨h1, h2, fun hs => ?_, fun _ => h4 (by simp), fun hs => ?_⟩
      · rw [hst] at hs
        exact absurd hs (by decide)
      · exact nomatch hst.symm.trans hs
    · obtain ⟨h1, h2, h3, h4, h5⟩ := h.unmapped x (by rw [hview]; exact hx) htrans
        (by rw [htranslate, hview]; exact hm)
      rw [hview] at h3 h4
      refine ⟨h1, h2, ?_, fun _ => h4 (.inl rfl), fun _ => h5 (.inr hnone)⟩
      rw [h3, hst]
      rfl

/-- The view's step before steps that are not its own. -/
theorem Reactivates.before {own : List Chan} {c : Chan} {s t u : State} (h : Reactivates c s t)
    (k : Activating own t u) (hc : c ∉ own) : Reactivates c s u := by
  refine ⟨fun x x' hx hs hm => ?_, fun x hx hs hm => ?_⟩
  · obtain ⟨h1, h2, h3, h4, h5⟩ := h.mapped x x' hx hs hm
    rcases k.spared c hc with ⟨hview, -⟩ | ⟨hst, hview, -⟩
    · exact ⟨by rw [hview]; exact h1, by rw [hview]; exact h2, by rw [hview]; exact h3, by rw [hview]; exact h4,
        by rw [hview]; exact h5⟩
    · rw [hst] at h3 h5
      refine ⟨by rw [hview]; exact h1, by rw [hview]; exact h2, fun hs => ?_, fun _ => by rw [hview]; simp, fun hs => ?_⟩
      · have hd := h3 hs
        rw [← hd] at hs
        exact absurd hs (by decide)
      · have hd := h5 hs
        split at hd <;> exact nomatch hd
  · obtain ⟨h1, h2, h3, h4, h5⟩ := h.unmapped x hx hs hm
    have hnotDeferred : (t.view c).st ≠ .deferred := by rw [h3]; split <;> decide
    rcases k.spared c hc with ⟨hview, hrecord, hdeferred⟩ | ⟨hst, -⟩
    · exact ⟨by rw [hview]; exact h1, by rw [hview]; exact h2, by rw [hview]; exact h3,
        fun hr => hrecord.trans (h4 hr), fun hd => (hdeferred hnotDeferred).trans (h5 hd)⟩
    · exact absurd hst hnotDeferred

/-- Both views, in either order. -/
theorem bothViews_reactivate {x y : Chan} (hxy : x ≠ y) {s : State} (hi : s.arb.st = .internal) :
    Activating [x, y] s (viewAtActivation y (viewAtActivation x s))
      ∧ Reactivates x s (viewAtActivation y (viewAtActivation x s))
      ∧ Reactivates y s (viewAtActivation y (viewAtActivation x s)) := by
  obtain ⟨hfirst, hx⟩ := viewAtActivation_reactivates (c := x) hi
  obtain ⟨hsecond, hy⟩ := viewAtActivation_reactivates (c := y) (hfirst.internal hi)
  exact ⟨(hfirst.mono (by simp)).trans (hsecond.mono (by simp)), hx.before hsecond (by simpa using hxy),
    hy.after hfirst (by simpa using hxy.symm)⟩

/-- Both views at a map activation at an INTERNAL arbiter (R38). -/
theorem viewsAtActivation_reactivates {s : State} (hi : s.arb.st = .internal) :
    Activating [.a, .b] s (viewsAtActivation s) ∧ ∀ c, Reactivates c s (viewsAtActivation s) := by
  have hchans : ∀ {r u : State}, Reactivates .a r u → Reactivates .b r u → ∀ c, Reactivates c r u :=
    fun ha hb c => by cases c <;> assumption
  have hfree := activating_free s (s.free + 1)
  unfold viewsAtActivation
  split
  · simp only
    split
    · obtain ⟨hact, hb, ha⟩ := bothViews_reactivate (x := .b) (y := .a) nofun (hfree.internal hi)
      exact ⟨(hfree.mono (by simp)).trans (hact.mono (by simp)),
        hchans (ha.after hfree (by simp)) (hb.after hfree (by simp))⟩
    · obtain ⟨hact, ha, hb⟩ := bothViews_reactivate (x := .a) (y := .b) nofun (hfree.internal hi)
      exact ⟨(hfree.mono (by simp)).trans hact, hchans (ha.after hfree (by simp)) (hb.after hfree (by simp))⟩
  · obtain ⟨hact, ha, hb⟩ := bothViews_reactivate (x := .a) (y := .b) nofun hi
    exact ⟨hact, hchans ha hb⟩

theorem viewsAtActivation_ilock {s : State} (hi : s.arb.st = .internal)
    (hn : ∀ c, (s.view c).st ∉ [ViewState.requesting, .deferred]) : (viewsAtActivation s).ilock = s.ilock := by
  have hmay : (s.view .a).mayRequest = false := by
    have ha := hn .a
    simp only [List.mem_cons, List.not_mem_nil, or_false] at ha
    simp [View.mayRequest, ha]
  have hfirst := (viewAtActivation_reactivates (c := .a) hi).1
  rw [viewsAtActivation, if_neg (by simp [hmay]),
    viewAtActivation_ilock (hfirst.internal hi) (hfirst.record .b (hn .b)).1, viewAtActivation_ilock hi (hn .a)]

end Sys2Proof.Machine
end

section
/-! The activation of a completed commit at an INTERNAL arbiter, and the end of its last write (R63, R116, R128, R139,
R167). -/

namespace Sys2Proof.Machine

/-! ## Interlocks at an activation -/

/-- Only entries in a SHARED extent of their holder are left (R128). -/
theorem pruneInterlocks_shared {s : State} (hi : s.arb.st = .internal) {e : Entry}
    (he : e ∈ (pruneInterlocks s).ilock.list) : e ∈ s.ilock.list ∧ inSharedExtent s.map e = true := by
  let r := removeEntries (fun e => !inSharedExtent s.map e) s
  have hremove : Activating [] s r := removeEntries_activating hi _
  have hage := ageOut_activating (hremove.internal hi) fun _ => true
  have ha := hage.trans (endChain_activating (hage.internal (hremove.internal hi)) .a)
  have hrest := ha.trans (endChain_activating (ha.internal (hremove.internal hi)) .b)
  have hkept : e ∈ r.ilock.list := hrest.list e he
  rw [removeEntries_list] at hkept
  simpa using hkept

theorem ageOne_list (d : Entry) (s : State) :
    (ageOne d s).ilock.list = s.ilock.list.filter fun x => !x.holds ⟨d.vol, d.cyl⟩ := by
  rw [ageOne, removeEntries_list]
  rfl

/-- Entries on other cylinders are left by those that age out. -/
theorem mem_foldl_ageOne {e : Entry} : ∀ (l : List Entry) {s : State}, (∀ d ∈ l, d.place ≠ e.place) →
    e ∈ s.ilock.list → e ∈ (l.foldl (fun s d => ageOne d s) s).ilock.list
  | [], _, _, he => he
  | d :: l, s, hl, he => by
    refine mem_foldl_ageOne l (fun x hx => hl x (List.mem_cons_of_mem d hx)) ?_
    have hplace := hl d List.mem_cons_self
    rw [ageOne_list, List.mem_filter]
    refine ⟨he, ?_⟩
    simp only [Bool.not_eq_true', Entry.holds, Bool.and_eq_false_iff, decide_eq_false_iff_not]
    by_contra hboth
    simp only [not_or, not_not] at hboth
    exact hplace (by simp [Entry.place, hboth])

theorem ageOut_keeps {test : Entry → Bool} {s : State} {e : Entry} (hn : (s.ilock.list.map Entry.place).Nodup)
    (he : e ∈ s.ilock.list) (hyoung : ∀ c m, s.map.chainLimits = some (c, m) → agedOut s.uptime m e = false) :
    e ∈ (ageOut test s).ilock.list := by
  unfold ageOut
  split
  · exact he
  next limit m hlimits =>
    refine mem_foldl_ageOne _ (fun d hd hplace => ?_) he
    rw [(permuted_perm _ _ _).mem_iff, List.mem_filter, Bool.and_eq_true] at hd
    obtain ⟨hmem, -, haged⟩ := hd
    rw [List.inj_on_of_nodup_map hn hmem he hplace, hyoung limit m hlimits] at haged
    exact nomatch haged

theorem endChain_keeps {c : Chan} {s : State} {e : Entry} (he : e ∈ s.ilock.list)
    (hfresh : ∀ limit m, s.map.chainLimits = some (limit, m) →
      chainQuiet s.uptime limit (s.ilock.chain.get e.holder) = false) : e ∈ (endChain c s).ilock.list := by
  unfold endChain
  split
  · exact he
  next limit m hlimits =>
    split
    next hquiet =>
      have hother : e.holder ≠ c := fun hc => by
        rw [← hc, hfresh limit m hlimits] at hquiet
        exact nomatch hquiet
      simpa [removeChain, removeEntries_list, hother] using he
    · exact he

/-- Steps of an activation keep a chain young. -/
theorem Activating.chainFresh {own : List Chan} {s t : State} (h : Activating own s t) {c : Chan} {limit : Nat}
    (hf : chainQuiet s.uptime limit (s.ilock.chain.get c) = false) :
    chainQuiet t.uptime limit (t.ilock.chain.get c) = false := by
  have huptime : t.uptime = s.uptime := h.frame .uptime (by decide)
  rw [← Bool.not_eq_true, chainQuiet_iff] at hf ⊢
  rintro ⟨stamp, hstamp, hquiet⟩
  rw [huptime] at hquiet
  exact hf ⟨stamp, h.chain c stamp hstamp, hquiet⟩

/-- An entry in a SHARED extent of its holder and within both limits is left, where no cylinder stands in two entries
(R121, R122, R128). -/
theorem pruneInterlocks_keeps {s : State} {e : Entry} (hi : s.arb.st = .internal)
    (hn : (s.ilock.list.map Entry.place).Nodup) (he : e ∈ s.ilock.list) (hshared : inSharedExtent s.map e = true)
    (hyoung : ∀ c m, s.map.chainLimits = some (c, m) → agedOut s.uptime m e = false)
    (hfresh : ∀ limit m, s.map.chainLimits = some (limit, m) →
      chainQuiet s.uptime limit (s.ilock.chain.get e.holder) = false) : e ∈ (pruneInterlocks s).ilock.list := by
  let r := removeEntries (fun e => !inSharedExtent s.map e) s
  let x := ageOut (fun _ => true) r
  let y := endChain .a x
  have hr : Activating [] s r := removeEntries_activating hi _
  have hx : Activating [] s x := hr.trans (ageOut_activating (hr.internal hi) _)
  have hy : Activating [] s y := hx.trans (endChain_activating (hx.internal hi) .a)
  have hlist : r.ilock.list = s.ilock.list.filter fun e => !!inSharedExtent s.map e := removeEntries_list _ s
  have hmap : ∀ {t : State}, Activating [] s t → t.map = s.map := fun h => h.frame .map (by decide)
  have hfreshAt : ∀ {t : State}, Activating [] s t → ∀ limit m, t.map.chainLimits = some (limit, m) →
      chainQuiet t.uptime limit (t.ilock.chain.get e.holder) = false := fun h limit m hlimits =>
    h.chainFresh (hfresh limit m (by rw [← hmap h]; exact hlimits))
  have her : e ∈ r.ilock.list := by
    rw [hlist]
    simpa [hshared] using he
  have hnr : (r.ilock.list.map Entry.place).Nodup := by
    rw [hlist]
    exact (List.filter_sublist.map _).nodup hn
  have hex : e ∈ x.ilock.list := ageOut_keeps hnr her fun c m hlimits => by
    rw [hmap hr] at hlimits
    have huptime : r.uptime = s.uptime := hr.frame .uptime (by decide)
    rw [huptime]
    exact hyoung c m hlimits
  have hey : e ∈ y.ilock.list := endChain_keeps hex (hfreshAt hx)
  exact endChain_keeps hey (hfreshAt hy)

/-! ## The mailbox at an activation -/

theorem clearMailbox_view (c : Chan) (s : State) :
    (clearMailbox s).view c = { s.view c with causes := { (s.view c).causes with mailboxNotice := false } } := by
  cases c <;> rfl

theorem clearMailbox_touches (s : State) : TouchesOnly [.view .a, .view .b, .mbox] s (clearMailbox s) :=
  fun p hp => by
    cases p with
    | view c => cases c <;> simp at hp
    | mbox => simp at hp
    | _ => rfl

theorem clearMailbox_mbox (s : State) : (clearMailbox s).mbox = .initial := rfl

/-- The mailbox kept or cleared: of a view, MAILBOX NOTICE alone may change (R139). -/
theorem mailboxAtActivation_kept (old : Option Nat) (s : State) :
    TouchesOnly [.view .a, .view .b, .mbox] s (mailboxAtActivation old s)
      ∧ (∀ c, (mailboxAtActivation old s).view c = { s.view c with causes := { (s.view c).causes with
          mailboxNotice := ((mailboxAtActivation old s).view c).causes.mailboxNotice } })
      ∧ (s.map.mailboxCylinder = old → (mailboxAtActivation old s).mbox = s.mbox)
      ∧ (s.map.mailboxCylinder ≠ old → (mailboxAtActivation old s).mbox = .initial
          ∧ ∀ c, ((mailboxAtActivation old s).view c).causes.mailboxNotice = false) := by
  unfold mailboxAtActivation
  split
  next h => exact ⟨.refl _ s, fun c => rfl, fun _ => rfl, fun hn => absurd h hn⟩
  next h =>
    refine ⟨clearMailbox_touches s, fun c => ?_, fun he => absurd he h, fun _ => ⟨clearMailbox_mbox s, fun c => ?_⟩⟩ <;>
      rw [clearMailbox_view]

/-! ## The rest of an activation -/

/-- What follows the views at an activation: the mailbox, the causes, the staged images, E19, and a drive that becomes
usable (R37, R139, R167). -/
structure Announced (imgs : CommitImages) (s w u : State) : Prop where
  frame   : TouchesOnly [.view .a, .view .b, .map, .mbox, .ev] w u
  map     : u.map = (copyStaged w).map
  view    : ∀ c, (w.view c).st ≠ .notReady → u.view c = { w.view c with causes := (u.view c).causes }
  leaves  : s.watch.st = .running → s.map.mapState = .missing → ∀ c, (w.view c).st = .notReady →
    (u.view c).st = .standby
  given   : ∀ c, (w.view c).st ≠ .detached → (u.view c).causes.mapChanged = true
  commit  : Open (.sole .mapCommitted) w → Recorded (.sole .mapCommitted) (imageWord imgs.map 1) u
  kept    : w.map.mailboxCylinder = s.map.mailboxCylinder → u.mbox = w.mbox
  cleared : w.map.mailboxCylinder ≠ s.map.mailboxCylinder → u.mbox = .initial
    ∧ ∀ c, (u.view c).causes.mailboxNotice = false

/-- The mailbox kept or cleared, and MAP CHANGED given to both views (R38, R139). -/
def told (old : Option Nat) (w : State) : State :=
  giveCause .b .mapChanged (giveCause .a .mapChanged (mailboxAtActivation old w))

/-- The staged images made copies, and E19 (R62, R167). -/
def reported (g : State) : State := raiseSole .mapCommitted .absent g.map.revision (copyStaged g)

theorem told_touches (old : Option Nat) (w : State) : TouchesOnly [.view .a, .view .b, .mbox] w (told old w) :=
  (mailboxAtActivation_kept old w).1.trans (((giveCause_touches .a _ _).mono (by decide)).trans
    ((giveCause_touches .b _ _).mono (by decide)))

theorem told_mbox (old : Option Nat) (w : State) : (told old w).mbox = (mailboxAtActivation old w).mbox :=
  Eq.trans (giveCause_touches .b _ _ .mbox (by decide)) (giveCause_touches .a _ _ .mbox (by decide))

theorem told_view (old : Option Nat) (w : State) (c : Chan) :
    (told old w).view c = { w.view c with causes := ((told old w).view c).causes } := by
  have hsame := (mailboxAtActivation_kept old w).2.1 c
  unfold told
  rw [giveBoth_view]
  split <;> rw [hsame]

theorem told_mapChanged (old : Option Nat) {w : State} {c : Chan} (h : (w.view c).st ≠ .detached) :
    ((told old w).view c).causes.mapChanged = true := by
  have hst : ((mailboxAtActivation old w).view c).st ≠ .detached := by
    rw [(mailboxAtActivation_kept old w).2.1 c]
    exact h
  unfold told
  rw [giveBoth_view, if_neg hst]
  rfl

theorem told_mailboxNotice (old : Option Nat) {w : State} (h : w.map.mailboxCylinder ≠ old) (c : Chan) :
    ((told old w).view c).causes.mailboxNotice = false := by
  have hnotice := ((mailboxAtActivation_kept old w).2.2.2 h).2 c
  unfold told
  rw [giveBoth_view]
  split <;> exact hnotice

theorem reported_touches (g : State) : TouchesOnly [.map, .ev] g (reported g) :=
  TouchesOnly.trans (t := copyStaged g) ((touches_map g _).mono (by decide)) ((touches_ev _ _).mono (by decide))

theorem reported_recorded {g : State} (h : Open (.sole .mapCommitted) g) :
    Recorded (.sole .mapCommitted) g.map.revision (reported g) :=
  recorded_raise _ _ _ _ (copyStaged g) h

/-- A drive made usable by the activation is made known to the views (R37). -/
theorem activate_eq {imgs : CommitImages} {s w : State} (hi : w.arb.st = .internal)
    (hw : w = viewsAtActivation (pruneInterlocks (installImages imgs s))) :
    activate imgs s =
      if !usable s && usable (reported (told s.map.mailboxCylinder w)) then
        viewsUsable (reported (told s.map.mailboxCylinder w))
      else reported (told s.map.mailboxCylinder w) := by
  have harb : (told s.map.mailboxCylinder w).arb = w.arb := told_touches _ w .arb (by decide)
  have hjudge := judgeRelease_internal (s := told s.map.mailboxCylinder w) (by rw [harb]; exact hi)
  unfold told at hjudge
  unfold activate
  rw [← hw]
  simp only [hjudge]
  rfl

/-- An activation, from its translated views on. -/
theorem activate_announced {imgs : CommitImages} {s w : State} (hi : w.arb.st = .internal)
    (hw : w = viewsAtActivation (pruneInterlocks (installImages imgs s))) (hmap : w.map = (installImages imgs s).map)
    (hwatch : w.watch = s.watch) : Announced imgs s w (activate imgs s) := by
  obtain ⟨-, -, hmkept, hmcleared⟩ := mailboxAtActivation_kept s.map.mailboxCylinder w
  have hactivate := activate_eq hi hw
  have hmbox := told_mbox s.map.mailboxCylinder w
  have hgview := told_view s.map.mailboxCylinder w
  have hgiven := fun c => told_mapChanged s.map.mailboxCylinder (w := w) (c := c)
  have hnotice := told_mailboxNotice s.map.mailboxCylinder (w := w)
  have hwg := told_touches s.map.mailboxCylinder w
  generalize told s.map.mailboxCylinder w = g at hactivate hmbox hgview hgiven hnotice hwg
  have hge := reported_touches g
  have hgmap : g.map = w.map := hwg .map (by decide)
  have hrecorded : Open (.sole .mapCommitted) w → Recorded (.sole .mapCommitted) (imageWord imgs.map 1) (reported g) := by
    have hgev : g.ev = w.ev := hwg .ev (by decide)
    have hrevision : g.map.revision = imageWord imgs.map 1 := by
      rw [hgmap, hmap]
      rfl
    intro hopen
    rw [← hrevision]
    exact reported_recorded (by rw [Open, hgev]; exact hopen)
  have hemap : (reported g).map = (copyStaged w).map := by
    show (copyStaged g).map = _
    simp only [copyStaged, hgmap]
  have heusable : usable (reported g) = true ↔ s.watch.st = .running := by
    have hewatch : (reported g).watch = s.watch :=
      Eq.trans (hge .watch (by decide)) (Eq.trans (hwg .watch (by decide)) hwatch)
    have hvalid : (reported g).map.mapState = .valid := by
      rw [hemap]
      show w.map.mapState = _
      rw [hmap]
      rfl
    rw [usable_iff, hewatch, hvalid, and_iff_left rfl]
  have heview : ∀ c, (reported g).view c = g.view c := fun c => hge (.view c) (by simp)
  have hembox : (reported g).mbox = g.mbox := hge .mbox (by decide)
  generalize reported g = e at hactivate hge hrecorded hemap heusable heview hembox
  have hlast : TouchesOnly [.view .a, .view .b] e (activate imgs s)
      ∧ (∀ c, ((activate imgs s).view c).causes = (e.view c).causes)
      ∧ (∀ c, (e.view c).st ≠ .notReady → (activate imgs s).view c = e.view c) := by
    rw [hactivate]
    split
    · refine ⟨viewsUsable_touches e, viewsUsable_causes e, fun c hc => ?_⟩
      rw [viewsUsable_view, if_neg hc]
    · exact ⟨.refl _ e, fun c => rfl, fun c _ => rfl⟩
  obtain ⟨hlframe, hlcauses, hlview⟩ := hlast
  have hest : ∀ c, (e.view c).st = (w.view c).st := fun c => by rw [heview, hgview]
  have hlmbox : (activate imgs s).mbox = (mailboxAtActivation s.map.mailboxCylinder w).mbox :=
    Eq.trans (hlframe .mbox (by decide)) (Eq.trans hembox hmbox)
  have hlev : (activate imgs s).ev = e.ev := hlframe .ev (by decide)
  refine ⟨?frame, Eq.trans (hlframe .map (by decide)) hemap, fun c hc => ?view, fun hrun hmiss c hc => ?leaves,
    fun c hc => ?given, fun hopen => ?commit, fun h => Eq.trans hlmbox (hmkept h),
    fun h => ⟨Eq.trans hlmbox (hmcleared h).1, fun c => ?notice⟩⟩
  case frame => exact (hwg.mono (by decide)).trans ((hge.mono (by decide)).trans (hlframe.mono (by decide)))
  case view => rw [hlview c (by rw [hest]; exact hc), heview, hgview]
  case leaves =>
    have hnot : usable s = false := by
      rw [← Bool.not_eq_true, usable_iff]
      rintro ⟨-, hvalid⟩
      exact nomatch hmiss.symm.trans hvalid
    rw [hactivate, if_pos (by simp [hnot, heusable.2 hrun]), viewsUsable_st, if_pos (by rw [hest]; exact hc)]
  case given => rw [hlcauses, heview]; exact hgiven c hc
  case commit => unfold Recorded; rw [hlev]; exact hrecorded hopen
  case notice => rw [hlcauses, heview]; exact hnotice h c

end Sys2Proof.Machine
end

section
/-! The end of a commit's last full write at the Map Store (R63, R82, R116, R167). -/

namespace Sys2Proof.Machine

/-! ## A full internal write -/

theorem writeDone_touches (v : Vol) (imgs : CommitImages) (s : State) :
    TouchesOnly [.drive, .relay] s (writeDone v imgs s) :=
  ((touches_drive s _).mono (by decide)).trans (((dropDriveGates_touches _).mono (by decide)).trans
    ((touches_relay _ _).mono (by decide)))

/-- A full internal write's gate is dropped, its image has gone out and its sector is mended (R14, R116). -/
theorem writeDone_sector (v : Vol) (imgs : CommitImages) (s : State) :
    (writeDone v imgs s).drive.writeGate = false
      ∧ (writeDone v imgs s).drive.writeData = (imgs.imageFor v).toList
      ∧ (writeDone v imgs s).relay.torn = s.relay.torn.filter fun e => decide (e.addr ≠ ⟨v, 0, .h0, 0⟩) := by
  let sent : State := { s with drive := { s.drive with writeData := (imgs.imageFor v).toList } }
  have hrelay : (dropDriveGates sent).relay = s.relay := dropDriveGates_touches sent .relay (by decide)
  refine ⟨(dropDriveGates_low sent).2, ?_, ?_⟩
  · show (dropDriveGates sent).drive.writeData = _
    unfold dropDriveGates
    rw [(offerNext_decides _).drive]
  · show withoutAddr (dropDriveGates sent).relay.torn (mapSector v) = _
    rw [hrelay]
    rfl

/-! ## The decision with an empty internal queue -/

theorem grantTo_noTransfer (z : Chan) {s : State} (hq : s.arb.queue = []) (hf : s.arb.st = .free) :
    (grantTo z s).map = s.map ∧ (grantTo z s).arb.queue = [] ∧ (grantTo z s).arb.st ≠ .internal := by
  cases h : s.arb.request.get z with
  | none =>
    rw [grantTo_none h, hf]
    exact ⟨rfl, hq, nofun⟩
  | some p =>
    refine ⟨grantTo_touches z s .map (by simp), ?_, ?_⟩
    · rw [grantTo_arb h]
      exact hq
    · rw [grantTo_arb h]
      simp only
      split <;> exact nofun

theorem decideGrant_noTransfer {s : State} (hq : s.arb.queue = []) (hf : s.arb.st = .free) :
    (decideGrant s).map = s.map ∧ (decideGrant s).arb.queue = [] ∧ (decideGrant s).arb.st ≠ .internal := by
  rcases decideGrant_cases s with h | ⟨hqueue, -⟩ | ⟨z, -, h⟩ | ⟨z, -, h⟩
  · rw [h, hf]
    exact ⟨rfl, hq, nofun⟩
  · exact absurd hq hqueue
  · rw [h]
    exact grantTo_noTransfer z hq hf
  · rw [h]
    exact grantTo_noTransfer (s := raise _ _ _ _ s) z hq hf

/-! ## The completion of a commit -/

/-- The part at the end of a commit's last write: `w` once the views are translated again, `u` after the decision. -/
structure Completed (imgs : CommitImages) (s w u : State) : Prop where
  acting  : Activating [.a, .b] (installImages imgs s) w
  again   : ∀ c, Reactivates c (installImages imgs s) w
  frame   : TouchesOnly (.mbox :: Part.reached) s u
  lines   : u.drive.writeGate = s.drive.writeGate ∧ u.drive.writeData = s.drive.writeData
    ∧ u.relay.torn = s.relay.torn
  map     : u.map = { (copyStaged (installImages imgs s)).map with xfer := .none }
  arb     : u.arb.queue = [] ∧ u.arb.st ≠ .internal
  view    : ∀ c, (w.view c).st ≠ .notReady →
    u.view c = { w.view c with st := (u.view c).st, idle := (u.view c).idle, causes := (u.view c).causes }
  granted : ∀ c, (w.view c).st ≠ .notReady →
    (u.view c).st = (w.view c).st ∨ (w.arb.request.get c ≠ none ∧ (u.view c).st = .positioned)
  record  : ∀ c, w.arb.request.get c = none → u.arb.request.get c = none
  ilock   : u.ilock = w.ilock
  leaves  : s.watch.st = .running → s.map.mapState = .missing → ∀ c, (w.view c).st = .notReady →
    w.arb.request.get c = none → (u.view c).st = .standby
  given   : ∀ c, (w.view c).st ≠ .detached → (u.view c).causes.mapChanged = true
  commit  : Open (.sole .mapCommitted) s → Recorded (.sole .mapCommitted) (imageWord imgs.map 1) u
  kept    : w.map.mailboxCylinder = s.map.mailboxCylinder → u.mbox = s.mbox
  cleared : w.map.mailboxCylinder ≠ s.map.mailboxCylinder → u.mbox = .initial
    ∧ ∀ c, (u.view c).causes.mailboxNotice = false

theorem installImages_touches (imgs : CommitImages) (s : State) : TouchesOnly [.map] s (installImages imgs s) :=
  touches_map s _

/-- The views translated again, the activation told, the transfer ended and the next decision made (R82, R167). -/
theorem activate_completes {imgs : CommitImages} {s w : State} (hi : s.arb.st = .internal) (hq : s.arb.queue = [.mapWrite])
    (hw : w = viewsAtActivation (pruneInterlocks (installImages imgs s))) :
    Completed imgs s w (decideGrant (transferEnded (activate imgs s))) := by
  have hprune := pruneInterlocks_activating (s := installImages imgs s) hi
  obtain ⟨hviews, hagain⟩ := viewsAtActivation_reactivates (hprune.internal hi)
  have hact : Activating [.a, .b] (installImages imgs s) w := by
    rw [hw]
    exact (hprune.mono (by simp)).trans hviews
  have hwi : w.arb.st = .internal := hact.internal hi
  have hsw : TouchesOnly [.view .a, .view .b, .map, .arb, .ilock, .ev] s w :=
    ((installImages_touches imgs s).mono (by decide)).trans (hact.frame.mono (by decide))
  have hwmap : w.map = (installImages imgs s).map := hact.frame .map (by decide)
  obtain ⟨hframe, hmap, hview, hleaves, hgiven, hcommit, hkept, hcleared⟩ :=
    activate_announced hwi hw hwmap (hsw .watch (by decide))
  generalize activate imgs s = f at hframe hmap hview hleaves hgiven hcommit hkept hcleared ⊢
  have hfarb : f.arb = w.arb := hframe .arb (by decide)
  have hft := transferEnded_touches f
  have htmap : (transferEnded f).map = { (copyStaged (installImages imgs s)).map with xfer := .none } := by
    show { f.map with xfer := .none } = _
    rw [hmap]
    simp only [copyStaged, hwmap]
  have htarb : (transferEnded f).arb = { w.arb with st := .free, awaited := none, queue := [] } := by
    show { f.arb with st := .free, awaited := none, queue := f.arb.queue.tail } = _
    have hqueue : w.arb.queue = [.mapWrite] := by rw [hact.arb]; exact hq
    rw [hfarb, hqueue]
    rfl
  have htlines : (transferEnded f).drive.writeGate = f.drive.writeGate
      ∧ (transferEnded f).drive.writeData = f.drive.writeData := ⟨rfl, rfl⟩
  have htview : ∀ c, (transferEnded f).view c = f.view c := fun c => hft (.view c) (by simp)
  generalize transferEnded f = t at hft htmap htarb htlines htview ⊢
  obtain ⟨humap, huqueue, hust⟩ := decideGrant_noTransfer (s := t) (by rw [htarb]) (by rw [htarb])
  have hgrant := fun c => decideGrant_mayGrant c t
  have htu := decideGrant_touches t
  have hdecides := decideGrant_decides t
  generalize decideGrant t = u at humap huqueue hust hgrant htu hdecides ⊢
  have hrequest : ∀ c, t.arb.request.get c = w.arb.request.get c := fun c => by rw [htarb]
  have hcauses : ∀ c, (u.view c).causes.mapChanged = (f.view c).causes.mapChanged
      ∧ (u.view c).causes.mailboxNotice = (f.view c).causes.mailboxNotice := fun c => by
    rw [hdecides.view c, htview]
    exact ⟨rfl, rfl⟩
  have hmbox : u.mbox = f.mbox := Eq.trans (htu .mbox (by decide)) (hft .mbox (by decide))
  have hst : ∀ c, (u.view c).st = (f.view c).st ∨ (w.arb.request.get c ≠ none ∧ (u.view c).st = .positioned) := fun c => by
    rw [← hrequest, ← htview]
    rcases (hgrant c).view with h | ⟨hr, h⟩
    · exact .inl (by rw [h])
    · exact .inr ⟨hr, by rw [h]⟩
  refine ⟨hact, fun c => ?again, ?frame, ?lines, humap.trans htmap, ⟨huqueue, hust⟩, fun c hc => ?view, fun c hc => ?granted,
    fun c hc => ((hgrant c).quiet ((hrequest c).trans hc)).1, ?ilock, fun hrun hmiss c hc hr => ?leaves, fun c hc => ?given,
    fun hopen => ?commit, fun h => ?kept, fun h => ⟨Eq.trans hmbox (hcleared h).1, fun c => ?notice⟩⟩
  case again =>
    rw [hw]
    exact (hagain c).after hprune (by simp)
  case frame =>
    exact (hsw.mono (by decide)).trans ((hframe.mono (by decide)).trans ((hft.mono (by decide)).trans
      (htu.mono (by decide))))
  case lines =>
    have hfdrive : f.drive = s.drive := Eq.trans (hframe .drive (by decide)) (hsw .drive (by decide))
    have htrelay : t.relay = s.relay :=
      Eq.trans (hft .relay (by decide)) (Eq.trans (hframe .relay (by decide)) (hsw .relay (by decide)))
    obtain ⟨hgate, hdata⟩ := htlines
    rw [hdecides.drive, hdecides.relay, htrelay, ← hfdrive]
    exact ⟨hgate, hdata, rfl⟩
  case view =>
    have hu := hdecides.view c
    rw [htview, hview c hc] at hu
    rw [hu]
  case granted =>
    have hs : (f.view c).st = (w.view c).st := by rw [hview c hc]
    rw [← hs]
    exact hst c
  case ilock => exact Eq.trans (htu .ilock (by decide)) (Eq.trans (hft .ilock (by decide)) (hframe .ilock (by decide)))
  case leaves =>
    have hu := hst c
    rw [hleaves hrun hmiss c hc] at hu
    exact hu.resolve_right fun h => h.1 hr
  case given => rw [(hcauses c).1]; exact hgiven c hc
  case commit =>
    have hopenw : Open (.sole .mapCommitted) w := hact.raises.spares_open (by decide) hopen
    have hfev : t.ev = f.ev := hft .ev (by decide)
    refine Recorded.keep (s := t) ?_ hdecides.events
    unfold Recorded
    rw [hfev]
    exact hcommit hopenw
  case kept => exact Eq.trans hmbox (Eq.trans (hkept h) (hsw .mbox (by decide)))
  case notice => rw [(hcauses c).2]; exact (hcleared h).2 c

/-! ## What a completed commit leaves -/

section
variable {imgs : CommitImages} {s w u : State} (h : Completed imgs s w u)
include h

theorem Completed.extents (c : Chan) : u.map.extents c = (installImages imgs s).map.extents c := by
  rw [h.map]
  rfl

theorem Completed.mailboxCylinder : u.map.mailboxCylinder = w.map.mailboxCylinder := by
  have hw : w.map = (installImages imgs s).map := h.acting.frame .map (by decide)
  rw [hw]
  simp only [MapStore.mailboxCylinder, h.extents]

/-- The map activated is the one that the views were translated against. -/
theorem Completed.translates (c : Chan) (v : Vol) (n : Nat) :
    translate u c v n = translate (installImages imgs s) c v n := by
  have hwatch : u.watch = s.watch := h.frame .watch (by decide)
  refine translate_congr (fun x => ?_) h.extents c v n
  cases x <;> simp only [usableVol, usable, h.map, hwatch] <;> rfl

theorem Completed.notReady_iff (c : Chan) : (w.view c).st = .notReady ↔ (s.view c).st = .notReady :=
  h.acting.out c .notReady (by simp)

theorem Completed.detached_iff (c : Chan) : (w.view c).st = .detached ↔ (s.view c).st = .detached :=
  h.acting.out c .detached (by simp)

theorem Completed.ready {c : Chan} (hst : (s.view c).st ∈ translated) : (w.view c).st ≠ .notReady := fun hn => by
  rw [(h.notReady_iff c).1 hn] at hst
  exact absurd hst (by decide)

theorem Completed.sel {c : Chan} (hst : (s.view c).st ∈ translated) : (u.view c).sel = (s.view c).sel := by
  rw [h.view c (h.ready hst), h.acting.view c]
  rfl

theorem Completed.wait {c : Chan} (hst : (s.view c).st ∈ translated) : (u.view c).wait = (s.view c).wait := by
  rw [h.view c (h.ready hst), h.acting.view c]
  rfl

/-- Where no record stands beside the view, the decision leaves it as the translation has. -/
theorem Completed.st_kept {c : Chan} (hst : (s.view c).st ∈ translated) (hr : w.arb.request.get c = none) :
    (u.view c).st = (w.view c).st := (h.granted c (h.ready hst)).resolve_right fun hg => hg.1 hr

/-- A view that was not waiting has no record afterwards where it had none. -/
theorem Completed.record_none {c : Chan} (hn : (s.view c).st ∉ [ViewState.requesting, .deferred])
    (hr : s.arb.request.get c = none) : w.arb.request.get c = none := (h.acting.record c hn).2.1.trans hr

/-- A target mapped by the map activated (R38). -/
theorem Completed.mapped {c : Chan} {t t' : Target} (ht : (s.view c).target = some t) (hst : (s.view c).st ∈ translated)
    (hr : (s.view c).st ≠ .requesting → s.arb.request.get c = none) (hm : Maps u c (s.view c).sel.vol t.logical t') :
    (u.view c).target = some t' ∧ (u.view c).seekError = (s.view c).seekError
      ∧ (u.view c).wait = (s.view c).wait
      ∧ ((s.view c).st ∈ [ViewState.standby, .faulted] → (u.view c).st = (s.view c).st)
      ∧ ((s.view c).st ∈ [ViewState.requesting, .deferred] →
          (u.view c).st ∈ [ViewState.requesting, .deferred, .positioned])
      ∧ ((s.view c).st = .positioned →
          (u.view c).st = if t'.physical = t.physical then .positioned else .standby) := by
  obtain ⟨htarget, herror, hstill, hwaits, hstands⟩ := (h.again c).mapped t t' ht hst
    ((h.translates c _ _).symm.trans (translate_mapped hm))
  have hview := h.view c (h.ready hst)
  have hquiet : (s.view c).st ∉ [ViewState.requesting, .deferred] → (u.view c).st = (w.view c).st := fun hn =>
    h.st_kept hst (h.record_none hn (hr fun hq => hn (by simp [hq])))
  refine ⟨by rw [hview]; exact htarget, by rw [hview]; exact herror, h.wait hst, fun hs => ?_, fun hs => ?_, fun hs => ?_⟩
  · refine (hquiet fun hn => ?_).trans (hstill hs)
    simp only [List.mem_cons, List.not_mem_nil, or_false] at hs hn
    rcases hs with hs | hs <;> simp [hs] at hn
  · rcases h.granted c (h.ready hst) with hg | ⟨-, hg⟩
    · have hw := hwaits hs
      rw [← hg] at hw
      simp only [List.mem_cons, List.not_mem_nil, or_false] at hw ⊢
      tauto
    · simp [hg]
  · exact (hquiet (by simp [hs])).trans (hstands hs)

/-- A target not mapped by the map activated (R24, R38). -/
theorem Completed.unmapped {c : Chan} {t : Target} (ht : (s.view c).target = some t) (hst : (s.view c).st ∈ translated)
    (hr : (s.view c).st ≠ .requesting → s.arb.request.get c = none)
    (hm : usableVol u (s.view c).sel.vol = false ∨ Unmapped u c (s.view c).sel.vol t.logical) :
    (u.view c).target = none ∧ (u.view c).seekError = true
      ∧ (u.view c).st = (if (s.view c).st = .faulted then .faulted else .standby)
      ∧ u.arb.request.get c = none ∧ ((s.view c).st = .deferred → u.ilock.deferred.get c = none) := by
  have htranslate : translate (installImages imgs s) c (s.view c).sel.vol t.logical ∈ [Translation.unusable, .unmapped] := by
    rw [← h.translates]
    rcases hm with hm | hm
    · simp [translate_unusable hm]
    · simp [translate_unmapped hm]
  obtain ⟨htarget, herror, hwst, hrequest, hdeferred⟩ := (h.again c).unmapped t ht hst htranslate
  have hnone : w.arb.request.get c = none := hrequest (by
    by_cases hq : (s.view c).st = .requesting
    · exact .inl hq
    · exact .inr (hr hq))
  have hview := h.view c (h.ready hst)
  refine ⟨by rw [hview]; exact htarget, by rw [hview]; exact herror, (h.st_kept hst hnone).trans hwst, h.record c hnone,
    fun hd => ?_⟩
  rw [h.ilock]
  exact hdeferred (.inl hd)

end

/-- The interlocks that an activation leaves lie in SHARED extents of the map activated (R128). -/
theorem activation_list {imgs : CommitImages} {s : State} (hi : s.arb.st = .internal) {e : Entry}
    (he : e ∈ (viewsAtActivation (pruneInterlocks (installImages imgs s))).ilock.list) :
    e ∈ s.ilock.list ∧ inSharedExtent (installImages imgs s).map e = true := by
  have hprune := pruneInterlocks_activating (s := installImages imgs s) hi
  exact pruneInterlocks_shared (s := installImages imgs s) hi ((viewsAtActivation_reactivates (hprune.internal hi)).1.list e he)

/-- Where no view waits, those of them within both limits are left (R121, R122, R128). -/
theorem activation_keeps {imgs : CommitImages} {s : State} (hi : s.arb.st = .internal)
    (hn : ∀ c, (s.view c).st ≠ .requesting ∧ (s.view c).st ≠ .deferred) (hlaw : InterlockLaw s) {e : Entry}
    (he : e ∈ s.ilock.list) (hshared : inSharedExtent (installImages imgs s).map e = true)
    (hyoung : (s.uptime - e.first).toNat < imageWord imgs.map 11)
    (hfresh : ∀ stamp, s.ilock.chain.get e.holder = some stamp → (s.uptime - stamp).toNat < imageWord imgs.map 10) :
    e ∈ (viewsAtActivation (pruneInterlocks (installImages imgs s))).ilock.list := by
  have hprune := pruneInterlocks_activating (s := installImages imgs s) hi
  have hidle : ∀ c, ((pruneInterlocks (installImages imgs s)).view c).st ∉ [ViewState.requesting, .deferred] := fun c =>
    (hprune.record c (by
      obtain ⟨hreq, hdef⟩ := hn c
      simp only [List.mem_cons, List.not_mem_nil, or_false, not_or]
      exact ⟨hreq, hdef⟩)).1
  have hlimits : (installImages imgs s).map.chainLimits = some (imageWord imgs.map 10, imageWord imgs.map 11) := rfl
  rw [viewsAtActivation_ilock (hprune.internal hi) hidle]
  refine pruneInterlocks_keeps (s := installImages imgs s) hi hlaw.1 he hshared (fun c m hl => ?_) fun limit m hl => ?_
  · obtain ⟨rfl, rfl⟩ := Prod.mk.inj (Option.some.inj (hlimits.symm.trans hl))
    rw [← Bool.not_eq_true, agedOut_iff]
    exact Nat.not_le.2 hyoung
  · obtain ⟨rfl, rfl⟩ := Prod.mk.inj (Option.some.inj (hlimits.symm.trans hl))
    rw [← Bool.not_eq_true, chainQuiet_iff]
    rintro ⟨stamp, hstamp, hquiet⟩
    exact absurd hquiet (Nat.not_le.2 (hfresh stamp hstamp))

/-! ## The end of the write -/

theorem exec_internalWriteEnd {v : Vol} {imgs : CommitImages} {s : State} (hx : s.map.xfer = .writing v)
    (hc : s.map.commit = some imgs) :
    exec .internalWriteEnd s = .next (afterWrite v imgs (writeDone v imgs s)) := by
  simp only [exec, execInternalWriteEnd, hx, hc]

/-- A map write with a label write to follow (R63). -/
theorem afterWrite_label {imgs : CommitImages} {s : State} (hl : imgs.label.isSome = true) (hw : s.watch.st ≠ .supplyHold) :
    afterWrite .f imgs s = beginSector .r s := by
  simp [afterWrite, hl, hw]

/-- The last write of a commit (R82, R167). -/
theorem afterWrite_last {v : Vol} {imgs : CommitImages} {s : State} (hlast : v = .r ∨ imgs.label = none) :
    afterWrite v imgs s = reportGateEnd (decideGrant (transferEnded (activate imgs s))) := by
  rw [afterWrite, if_neg (by rcases hlast with rfl | hn <;> simp [*]), internalEnds_eq]

theorem beginSector_touches (v : Vol) (s : State) : TouchesOnly [.map, .drive] s (beginSector v s) := by
  unfold beginSector
  split
  · exact (touches_map s _).mono (by decide)
  · exact TouchesOnly.trans ((touches_map s _).mono (by decide)) ((requestOrder_touches _ _).mono (by decide))

theorem beginSector_xfer (v : Vol) (s : State) :
    (beginSector v s).map.xfer = .headOrder v ∨ (beginSector v s).map.xfer = .awaitSector v := by
  unfold beginSector
  split
  · exact .inr rfl
  · refine .inl ?_
    obtain ⟨-, -, hmap, -⟩ := requestOrder_same (.head ⟨v, .h0⟩ .mapStore) (setXfer (.headOrder v) s)
    rw [hmap]
    rfl

theorem TouchesOnly.views {l : List Part} {s t : State} (h : TouchesOnly l s t) (ha : .view .a ∉ l) (hb : .view .b ∉ l) :
    t.views = s.views := by
  have hviewA : t.views.a = s.views.a := h (.view .a) ha
  have hviewB : t.views.b = s.views.b := h (.view .b) hb
  cases ht : t.views
  cases hs : s.views
  rw [ht, hs] at hviewA hviewB
  exact congrArg₂ Pair.mk hviewA hviewB

/-- Settles O37: by whether a label write follows; the last write through what a completed commit leaves. -/
theorem commitCompletes : Obligations.CommitCompletes := by
  intro v imgs s hx hc hhold hi hq
  have hd := writeDone_touches v imgs s
  obtain ⟨hgate, hdata, htorn⟩ := writeDone_sector v imgs s
  have hexec := exec_internalWriteEnd hx hc
  have himage : (imgs.imageFor v).toList = (if v = .f then imgs.map else imgs.label.getD .zero).toList := by
    cases v <;> rfl
  rw [himage] at hdata
  generalize writeDone v imgs s = d at hd hgate hdata htorn hexec
  have harb : d.arb = s.arb := hd .arb (by decide)
  have hmap : d.map = s.map := hd .map (by decide)
  have hwatch : d.watch = s.watch := hd .watch (by decide)
  by_cases hlast : v = .r ∨ imgs.label = none
  · have hview : ∀ c, d.view c = s.view c := fun c => hd (.view c) (by simp)
    have hilock : d.ilock = s.ilock := hd .ilock (by decide)
    have hev : d.ev = s.ev := hd .ev (by decide)
    have hmbox : d.mbox = s.mbox := hd .mbox (by decide)
    have huptime : d.uptime = s.uptime := hd .uptime (by decide)
    have hdi : d.arb.st = .internal := by rw [harb]; exact hi
    have hdone := activate_completes (imgs := imgs) hdi (by rw [harb]; exact hq) rfl
    have hlist := fun e => activation_list (imgs := imgs) (e := e) hdi
    have hkeeps := fun hn hlaw e => activation_keeps (imgs := imgs) (e := e) hdi hn hlaw
    rw [afterWrite_last hlast] at hexec
    generalize viewsAtActivation (pruneInterlocks (installImages imgs d)) = w at hdone hlist hkeeps
    generalize decideGrant (transferEnded (activate imgs d)) = u at hexec hdone
    obtain ⟨hugate, hudata, hutorn⟩ := hdone.lines
    have huwatch : u.watch = d.watch := hdone.frame .watch (by decide)
    rw [reportGateEnd_not_hold (by rw [huwatch, hwatch]; exact hhold)] at hexec
    have hcylinder := hdone.mailboxCylinder
    have hnone : imgs.label = none → u.map.heldLabel = s.map.heldLabel := fun hn => by
      rw [hdone.map, ← hmap]
      simp [copyStaged, installImages, hn]
    have hsome : ∀ l, imgs.label = some l → u.map.heldLabel = some l ∧ u.map.stagedLabel = l := fun l hl => by
      rw [hdone.map]
      simp [copyStaged, installImages, MapStore.labelImage, hl]
    have hshared : ∀ e, spanHas (u.map.extents e.holder) e.vol e.cyl (fun k => decide (k = .shared))
        = inSharedExtent (installImages imgs d).map e := fun e => by rw [hdone.extents]; rfl
    have huilock := hdone.ilock
    have hlaw : InterlockLaw s → InterlockLaw d := fun h => by
      unfold InterlockLaw entriesOf at *
      rw [hilock]
      exact h
    refine ⟨u, hexec, hugate.trans hgate, hutorn.trans htorn, hudata.trans hdata,
      (hd.mono (by decide)).trans hdone.frame, fun _ => ⟨by rw [hdone.map]; rfl, by rw [hdone.map]; rfl, by rw [hdone.map]; rfl,
        hsome, hnone, by rw [hdone.map]; rfl, by rw [hdone.map], hdone.arb.1, hdone.arb.2, fun c hn => ?given, fun hopen => ?commit,
        fun _ c t ht hst hr => ?views, fun hrun hmiss c hst hr => ?leaves, fun h => ?kept, fun h => ?cleared,
        fun e he => ?shared, fun hn hl e he hs hyoung hfresh => ?keeps⟩,
      fun hv hl => ?follows⟩
    case given => exact hdone.given c fun hdet => hn (by rw [← hview]; exact (hdone.detached_iff c).1 hdet)
    case commit => exact hdone.commit (by rw [Open, hev]; exact hopen)
    case views =>
      simp only [← hview, ← harb] at ht hst hr ⊢
      exact ⟨hdone.sel hst, fun t' hm => hdone.mapped ht hst hr hm, fun hm => hdone.unmapped ht hst hr hm⟩
    case leaves =>
      rw [← hview] at hst
      rw [← harb] at hr
      exact hdone.leaves (by rw [hwatch]; exact hrun) (by rw [hmap]; exact hmiss) c ((hdone.notReady_iff c).2 hst)
        (hdone.record_none (by rw [hst]; decide) hr)
    case kept => rw [← hmbox]; exact hdone.kept (by rw [← hcylinder, hmap]; exact h)
    case cleared =>
      obtain ⟨hinitial, hnotice⟩ := hdone.cleared (by rw [← hcylinder, hmap]; exact h)
      rw [hinitial]
      exact ⟨fun k => by simp [posted, hinitial, Mailbox.initial], rfl, rfl, hnotice⟩
    case shared =>
      rw [huilock] at he
      rw [hshared, ← hilock]
      exact hlist e he
    case keeps =>
      rw [hshared] at hs
      rw [← huptime] at hyoung hfresh
      rw [← hilock] at he hfresh
      rw [huilock]
      exact hkeeps (fun c => by rw [hview]; exact hn c) (hlaw hl) e he hs hyoung hfresh
    case follows =>
      rcases hlast with hr | hn
      · exact nomatch hv.symm.trans hr
      · rw [hn] at hl
        exact nomatch hl
  · obtain ⟨hr, hl⟩ := not_or.1 hlast
    have hv : v = .f := by
      cases v
      · rfl
      · exact absurd rfl hr
    subst hv
    have hsb := beginSector_touches .r d
    have hdecides := beginSector_decides .r d
    have hxfer := beginSector_xfer .r d
    rw [afterWrite_label (Option.isSome_iff_ne_none.2 hl) (by rw [hwatch]; exact hhold)] at hexec
    generalize beginSector .r d = u at hexec hsb hdecides hxfer
    have hframe : TouchesOnly [.map, .drive, .relay] s u := (hd.mono (by decide)).trans (hsb.mono (by decide))
    refine ⟨u, hexec, by rw [hdecides.drive]; exact hgate, by rw [hdecides.relay]; exact htorn,
      by rw [hdecides.drive]; exact hdata, hframe.mono (by decide), fun h => absurd h hlast, fun _ _ => ⟨?_, ?_, ?_, ?_, hxfer⟩⟩
    · rw [hdecides.map, hmap]
      exact hc
    · rw [hdecides.map, hmap]
    · exact hframe .arb (by decide)
    · exact hframe.views (by decide) (by decide)

end Sys2Proof.Machine
end

section
/-! The numbers of a decision and of a charge (R69, R70, R86, R88): what a charge leaves of the usage counts, and whom
the usage comparison and the wait limit name between two eligible channels. -/

namespace Sys2Proof.Machine

/-! ## The charge -/

/-- A charge that halves nothing: the channel's count is the sum (R86). -/
theorem chargedUsage_of_lt {u : Pair Nat} {x : Chan} {h : Nat} (hpeer : u.get (peer x) < 32768)
    (hsum : u.get x + h < 32768) : chargedUsage u x h = u.set x (u.get x + h) := by
  have hmin : min 65535 (u.get x + h) = u.get x + h := Nat.min_eq_right (by omega)
  cases x <;> simp_all [chargedUsage, Pair.get, Pair.set, peer]

/-- A charge that carries the channel's count to 32768 or past it halves both counts (R86). -/
theorem chargedUsage_of_le {u : Pair Nat} {x : Chan} {h : Nat} (hsum : 32768 ≤ u.get x + h) :
    chargedUsage u x h = Pair.set ⟨u.a / 2, u.b / 2⟩ x (min 65535 (u.get x + h) / 2) := by
  have hmin : 32768 ≤ min 65535 (u.get x + h) := le_min (by omega) hsum
  cases x <;> simp_all [chargedUsage, Pair.get, Pair.set]

theorem Pair.get_mk_self (n : Nat) (x : Chan) : Pair.get ⟨n, n⟩ x = n := by cases x <;> rfl

theorem Pair.get_le {u : Pair Nat} {n : Nat} (ha : u.a ≤ n) (hb : u.b ≤ n) (x : Chan) : u.get x ≤ n := by
  cases x <;> assumption

theorem Pair.set_le {u : Pair Nat} {n m : Nat} (ha : u.a ≤ n) (hb : u.b ≤ n) (hm : m ≤ n) (x : Chan) :
    (u.set x m).a ≤ n ∧ (u.set x m).b ≤ n := by
  cases x
  · exact ⟨hm, hb⟩
  · exact ⟨ha, hm⟩

/-- A charge leaves both counts below 32768 (R86). -/
theorem chargedUsage_le {u : Pair Nat} (ha : u.a ≤ 32767) (hb : u.b ≤ 32767) (x : Chan) (h : Nat) :
    (chargedUsage u x h).a ≤ 32767 ∧ (chargedUsage u x h).b ≤ 32767 := by
  rcases lt_or_ge (u.get x + h) 32768 with hsum | hsum
  · rw [chargedUsage_of_lt (Nat.lt_succ_of_le (Pair.get_le ha hb _)) hsum]
    exact Pair.set_le ha hb (by omega) x
  · rw [chargedUsage_of_le hsum]
    exact Pair.set_le (u := ⟨u.a / 2, u.b / 2⟩) (by simp only; omega) (by simp only; omega) (by omega) x

/-- Settles O51, by the two cases of a charge: a sum below 32768 is the count, one of 32768 or more is saturated and
halved with the peer's. -/
theorem chargeSaturatesThenHalves : Obligations.ChargeSaturatesThenHalves := by
  intro u x h ha hb
  have hsat : (if 65535 < u.get x + h then 65535 else u.get x + h) = min 65535 (u.get x + h) := by
    split <;> omega
  simp only [hsat]
  refine ⟨fun hlow => ?_, fun hhigh => ?_, chargedUsage_le ha hb x h⟩
  · have hsum : u.get x + h < 32768 := by omega
    rw [chargedUsage_of_lt (Nat.lt_succ_of_le (Pair.get_le ha hb _)) hsum]
    exact ⟨by simp; omega, by simp⟩
  · rw [chargedUsage_of_le (by omega)]
    refine ⟨by simp, ?_⟩
    rw [Pair.get_set_peer]
    cases x <;> rfl

/-! ## Between two eligible channels -/

/-- A channel is past its wait limit, on a VALID map (R69). -/
theorem pastLimit_iff {s : State} (hm : s.map.mapState = .valid) (c : Chan) :
    pastLimit s c = true ↔ (paramsOf s.map.activeMap c).lw ≠ 0
      ∧ (paramsOf s.map.activeMap c).lw ≤ (s.view c).wait := by
  simp [pastLimit, paramsFor_valid hm]

theorem records_of_both {s : State} {pa pb : Place} (h : s.arb.request = ⟨some pa, some pb⟩) (d : Chan) :
    s.arb.request.get d ≠ none := by
  rw [h]
  cases d <;> simp [Pair.get]

/-- A grant names its channel the last one granted (R71). -/
theorem grantTo_gLast {c : Chan} {s : State} (h : s.arb.request.get c ≠ none) : (grantTo c s).arb.gLast = c := by
  obtain ⟨p, hp⟩ := Option.ne_none_iff_exists'.1 h
  rw [grantTo_arb hp]
  rfl

/-- Neither past its limit: the usage comparison names the channel (R70). -/
theorem decideGrant_gLast_byUsage {s : State} {pa pb : Place} (hf : s.arb.st = .free) (hq : s.arb.queue = [])
    (hr : s.arb.request = ⟨some pa, some pb⟩) (hm : s.map.mapState = .valid)
    (hw : ∀ c, ¬((paramsOf s.map.activeMap c).lw ≠ 0 ∧ (paramsOf s.map.activeMap c).lw ≤ (s.view c).wait)) :
    (decideGrant s).arb.gLast = usageWinner s := by
  have hpast : ∀ c, pastLimit s c = false := fun c =>
    Bool.eq_false_iff.2 fun h => hw c ((pastLimit_iff hm c).1 h)
  rw [decideGrant_byUsage hf hq (records_of_both hr) (by simp [limitWinner, hpast]), grantTo_gLast (records_of_both hr _)]

/-- Settles O48: the decision is the usage comparison's, and each product is one of a count and a weight. -/
theorem usageComparisonNamesWinner : Obligations.UsageComparisonNamesWinner := by
  intro s pa pb hf hq hr hm hw
  refine ⟨?_, fun ha hb hwa hwb => ⟨Nat.mul_le_mul ha hwb, Nat.mul_le_mul hb hwa⟩⟩
  rw [decideGrant_gLast_byUsage hf hq hr hm hw, usageWinner_valid hm]

/-- The winner under the wait limit: the one channel past its limit, the longer waiter of two, or with equal waits the
one not granted last (R69). -/
theorem limitWinner_eq {s : State} {x : Chan} (hx : pastLimit s x = true)
    (hpeer : pastLimit s (peer x) = false ∨ (s.view (peer x)).wait < (s.view x).wait
      ∨ ((s.view (peer x)).wait = (s.view x).wait ∧ s.arb.gLast = peer x)) : limitWinner s = some x := by
  cases hp : pastLimit s (peer x) with
  | false => cases x <;> simp_all [limitWinner, peer]
  | true =>
    rcases hpeer with h | h | ⟨h, hlast⟩
    · exact absurd h (by simp [hp])
    · cases x <;> simp_all [limitWinner, peer, Nat.le_of_lt]
    · cases x <;> simp_all [limitWinner, peer]

/-- A grant by the wait limit raises E25 with the winner's wait (R69, R89). -/
theorem grantByLimit_raises (c : Chan) (s : State) :
    OnlyRaises [.chan c .waitLimitGrant] s (grantByLimit c s)
      ∧ (Open (.chan c .waitLimitGrant) s → Recorded (.chan c .waitLimitGrant) (s.view c).wait (grantByLimit c s)) := by
  have hev : (grantByLimit c s).ev = (raiseFor c .waitLimitGrant .absent (s.view c).wait s).ev :=
    grantTo_touches c _ .ev (by simp)
  rw [OnlyRaises, Recorded, hev]
  exact ⟨raiseFor_onlyRaises c .waitLimitGrant .absent _ rfl, raiseFor_records c .waitLimitGrant .absent rfl rfl⟩

/-- Settles O49: the decision is the wait limit's, and its grant raises E25. -/
theorem waitLimitNamesWinner : Obligations.WaitLimitNamesWinner := by
  intro s pa pb x hf hq hr hm hlw hpast hpeer
  have hwinner : limitWinner s = some x := by
    refine limitWinner_eq ((pastLimit_iff hm x).2 ⟨hlw, hpast⟩) ?_
    rcases hpeer with h | h | h
    · exact .inl (Bool.eq_false_iff.2 fun hp => ((pastLimit_iff hm _).1 hp).1 h)
    · exact .inl (Bool.eq_false_iff.2 fun hp => Nat.not_le_of_lt h ((pastLimit_iff hm _).1 hp).2)
    · exact .inr h
  rw [decideGrant_limit hf hq (records_of_both hr) hwinner]
  exact ⟨grantTo_gLast (records_of_both hr _), grantByLimit_raises x s⟩

/-! ## The usage command -/

/-- On zero counts the comparison goes away from the channel granted last (R70, R88). -/
theorem usageWinner_zero {s : State} (h : s.arb.usage = ⟨0, 0⟩) : usageWinner s = peer s.arb.gLast := by
  simp [usageWinner, h]

/-- A charge onto a zero count (R86, R88). -/
theorem chargedUsage_zero {h : Nat} (hh : h ≤ 65535) (x : Chan) :
    chargedUsage ⟨0, 0⟩ x h = Pair.set ⟨0, 0⟩ x (if h < 32768 then h else h / 2) := by
  have hzero : ∀ c, Pair.get (⟨0, 0⟩ : Pair Nat) c = 0 := Pair.get_mk_self 0
  split
  next hlow => rw [chargedUsage_of_lt (by rw [hzero]; omega) (by rw [hzero]; omega), hzero, Nat.zero_add]
  next hhigh =>
    rw [chargedUsage_of_le (by rw [hzero]; omega), hzero, Nat.zero_add, Nat.min_eq_right hh, Nat.zero_div]

/-- With no reply standing a frame is acted on (R161). -/
theorem takeFrame_of_ready {s : State} (h : s.line.reply = none) (text : List (BitVec 8)) (act : State → State) :
    takeFrame text act s = act { s with line := { s.line with frame := text, frameError := false } } := by
  simp [takeFrame, h]

/-- Settles O54, part by part: the command's effect, the charge onto a zero count, the decision on zero counts. -/
theorem usageCommandZeroesCounts : Obligations.UsageCommandZeroesCounts := by
  intro s hr t
  refine ⟨?command, fun x hh => chargedUsage_zero hh x, fun pa pb hf hq hreq hm hw => ?decision⟩
  case command =>
    show execUCommand s = _
    rw [execUCommand, takeFrame_of_ready hr]
    rfl
  case decision =>
    have hnamed : (decideGrant t).arb.gLast = usageWinner t := decideGrant_gLast_byUsage hf hq hreq hm hw
    rw [hnamed, usageWinner_zero rfl]
    rfl

end Sys2Proof.Machine
end

section
/-! ON CYLINDER after an acknowledged CYLINDER order: what the arbiter does at a seek that is reached (R72, R73, R91
to R93). The lemmas on a step of Positioner Control serve the calibration's and the recovery's steps too. -/

namespace Sys2Proof.Machine

/-! ## The step begun, and the position it leaves -/

/-- A step of Positioner Control that begins with an order (R92, R94, R95). -/
theorem requestOrder_step (o : DriveOrder) (p : Positioner) (s : State) :
    let u := requestOrder o { s with pos := p }
    u.pos = p ∧ OrderAsked o u ∧ TouchesOnly [.pos, .drive] s u :=
  ⟨(requestOrder_same o _).2.1, requestOrder_asked o _,
    ((touches_pos s p).mono (by decide)).trans ((requestOrder_touches o _).mono (by decide))⟩

theorem attemptSeek_step (n : Nat) (s : State) :
    (attemptSeek n s).pos = { s.pos with st := .seeking, ticks := none }
      ∧ OrderAsked (.cylinder n) (attemptSeek n s) ∧ TouchesOnly [.pos, .drive] s (attemptSeek n s) :=
  requestOrder_step (.cylinder n) _ s

/-- The physical cylinder and the last outcome stand, and no retry begins. -/
structure Stands (s t : State) : Prop where
  cyl   : t.pos.cyl = s.pos.cyl
  last  : t.pos.last = s.pos.last
  retry : s.pos.retry = false → t.pos.retry = false

theorem Stands.trans {s t u : State} (h : Stands s t) (k : Stands t u) : Stands s u :=
  ⟨k.cyl.trans h.cyl, k.last.trans h.last, fun hr => k.retry (h.retry hr)⟩

theorem Stands.of_pos {s t : State} (h : t.pos = s.pos) : Stands s t := by
  refine ⟨?_, ?_, ?_⟩ <;> rw [h]
  exact id

theorem Stands.refl (s : State) : Stands s s := .of_pos rfl

theorem Stands.after {s t u : State} (k : Stands t u) (h : t.pos = s.pos) : Stands s u := (Stands.of_pos h).trans k

theorem stands_order {s : State} {p : Positioner} (o : DriveOrder) (hc : p.cyl = s.pos.cyl) (hl : p.last = s.pos.last)
    (hr : s.pos.retry = false → p.retry = false) : Stands s (requestOrder o { s with pos := p }) := by
  have hpos := (requestOrder_step o p s).1
  exact ⟨by rw [hpos, hc], by rw [hpos, hl], fun h => by rw [hpos, hr h]⟩

theorem beginSeek_stands (n : Nat) (s : State) : Stands s (beginSeek n s) := by
  unfold beginSeek clearThenRecalibrate
  split
  · split <;> exact stands_order _ rfl rfl id
  · exact stands_order _ rfl rfl id

theorem askSeek_stands (n : Nat) (s : State) : Stands s (askSeek n s) := by
  unfold askSeek
  split
  · have hsought : Stands s (sought n s) := ⟨rfl, rfl, fun _ => rfl⟩
    exact hsought.trans (beginSeek_stands n (sought n s))
  · split <;> exact ⟨rfl, rfl, id⟩
  · split <;> exact ⟨rfl, rfl, id⟩
  · exact .refl s
  · exact .refl s

theorem seekFor_stands (n : Nat) (s : State) : Stands s (seekFor n s) := (askSeek_stands n _).after rfl

theorem beginTransfer_touches (s : State) : TouchesOnly [.map, .drive] s (beginTransfer s) := by
  unfold beginTransfer
  split
  · exact .refl _ s
  · exact (beginSector_touches _ s).mono (by decide)

theorem grantTo_stands (c : Chan) (s : State) : Stands s (grantTo c s) := by
  cases h : s.arb.request.get c with
  | none => rw [grantTo_none h]; exact .refl s
  | some p =>
    by_cases hc : s.pos.cyl = some p.cyl
    · rw [grantTo_there h hc]
      exact .of_pos (enterOwned_touches c _ .pos (by simp))
    · rw [grantTo_elsewhere h hc]
      exact (seekFor_stands _ _).after rfl

/-- A decision moves no actuator (R68, R71). -/
theorem decideGrant_stands (s : State) : Stands s (decideGrant s) := by
  rcases decideGrant_cases s with h | ⟨-, h⟩ | ⟨z, -, h⟩ | ⟨z, -, h⟩ <;> rw [h]
  · exact .refl s
  · unfold grantInternal
    simp only
    split
    · exact .of_pos (beginTransfer_touches _ .pos (by decide))
    · exact (seekFor_stands 0 _).after rfl
  · exact grantTo_stands z s
  · exact (grantTo_stands z (raiseFor z .waitLimitGrant .absent (s.view z).wait s)).after rfl

theorem claimEnd_stands (c : Chan) (b : Bool) (s : State) : Stands s (claimEnd c b s) := by
  rw [claimEnd, toFree_eq]
  refine .trans ?_ (decideGrant_stands _)
  cases b <;> exact ⟨rfl, rfl, id⟩

/-! ## The arbiter at a seek that is reached -/

section
variable {c : Chan} {k : ClaimKind} {n : Nat} {p : Place} {s : State}

/-- A reached seek whose claim was withdrawn (R73). -/
theorem arbiterReached_withdrawn (ha : s.arb.st = .claimed c k) (hr : s.arb.request.get c = none) :
    arbiterReached n s = claimEnd c (decide (k = .continuing)) s := by simp only [arbiterReached, ha, hr]

/-- A reached seek to the cylinder the claim still asks for (R72). -/
theorem arbiterReached_there (ha : s.arb.st = .claimed c k) (hr : s.arb.request.get c = some p) (hp : p.cyl = n) :
    arbiterReached n s = enterOwned c s := by simp only [arbiterReached, ha, hr, if_pos hp]

/-- A reached seek whose claim asks for another cylinder by now (R72). -/
theorem arbiterReached_elsewhere (ha : s.arb.st = .claimed c k) (hr : s.arb.request.get c = some p) (hp : p.cyl ≠ n) :
    arbiterReached n s = seekFor p.cyl s := by simp only [arbiterReached, ha, hr, if_neg hp]

end

/-- What the arbiter makes of a reached seek is a decision of its own (R72, R73, R81). -/
theorem arbiterReached_decides (n : Nat) (s : State) : Decides s (arbiterReached n s) := by
  unfold arbiterReached
  split
  · split
    · exact claimEnd_decides _ _ s
    · split
      · exact enterOwned_decides _ s
      · exact seekFor_decides _ s
  · exact (decides_arb s _).trans (beginTransfer_decides _)
  all_goals exact .refl s

theorem arbiterReached_stands (n : Nat) (s : State) : Stands s (arbiterReached n s) := by
  unfold arbiterReached
  split
  · split
    · exact claimEnd_stands _ _ s
    · split
      · exact .of_pos (enterOwned_touches _ s .pos (by simp))
      · exact seekFor_stands _ s
  · exact .of_pos (beginTransfer_touches _ .pos (by decide))
  all_goals exact .refl s

/-- Positioner Control IDLE on a cylinder it has sought (R93). -/
def Positioner.arrived (p : Positioner) (n : Nat) : Positioner :=
  { p with cyl := some n, st := .idle, retry := false, request := none, ticks := none, last := some ⟨.reached, some n⟩ }

/-- The part with Positioner Control so, before the arbiter is told. -/
def arrivedAt (n : Nat) (s : State) : State := { s with pos := s.pos.arrived n }

theorem seekReached_eq (n : Nat) (s : State) : seekReached n s = arbiterReached n (arrivedAt n s) := rfl

/-- A reached seek leaves the actuator on the cylinder, whatever the arbiter makes of it (R72, R73, R81, R93). -/
theorem seekReached_stands (n : Nat) (s : State) :
    (seekReached n s).pos.cyl = some n ∧ (seekReached n s).pos.retry = false
      ∧ (seekReached n s).pos.last = some ⟨.reached, some n⟩
      ∧ (seekReached n s).drive.onCylinder = s.drive.onCylinder := by
  have h := arbiterReached_stands n (arrivedAt n s)
  refine ⟨h.cyl, h.retry rfl, h.last, ?_⟩
  rw [seekReached_eq, (arbiterReached_decides n (arrivedAt n s)).drive]
  rfl

/-- The claim for the cylinder reached becomes its channel's grant (R35, R72). -/
theorem seekReached_grants {c : Chan} {k : ClaimKind} {n : Nat} {v : Vol} {s : State} (ha : s.arb.st = .claimed c k)
    (hr : s.arb.request.get c = some ⟨v, n⟩) :
    let u := seekReached n s
    u.pos = s.pos.arrived n
      ∧ u.arb = { s.arb with st := .owned c, request := s.arb.request.set c none, awaited := none }
      ∧ u.view c = { s.view c with st := .positioned, idle := 0 }
      ∧ TouchesOnly [.view c, .arb, .pos, .drive, .relay] s u := by
  have hu : seekReached n s = enterOwned c (arrivedAt n s) := arbiterReached_there (s := arrivedAt n s) ha hr rfl
  have htouch := enterOwned_touches c (arrivedAt n s)
  simp only [hu]
  exact ⟨htouch .pos (by simp), enterOwned_arb c _, enterOwned_view c _,
    ((touches_pos s _).mono (by simp)).trans (htouch.mono (by simp))⟩

/-- A seek asked for in IDLE begins (R91). -/
theorem askSeek_idle {n : Nat} {s : State} (h : s.pos.st = .idle) : askSeek n s = beginSeek n (sought n s) := by
  unfold askSeek
  split <;> simp_all [sought]

/-- From a known position, with the drive untroubled, a seek begins with its attempt (R92). -/
theorem beginSeek_known {n m : Nat} {s : State} (hc : s.pos.cyl = some m) (ht : driveTroubled s = false) :
    beginSeek n s = attemptSeek n s := by
  simp [beginSeek, hc, ht]

/-- The claim whose target has changed goes on with a seek from where the actuator stands (R72). -/
theorem seekReached_retargets {c : Chan} {k : ClaimKind} {n : Nat} {p : Place} {s : State} (ha : s.arb.st = .claimed c k)
    (hr : s.arb.request.get c = some p) (hp : p.cyl ≠ n) (ht : driveTroubled s = false) :
    let u := seekReached n s
    u.arb = { s.arb with awaited := some p.cyl } ∧ u.pos.st = .seeking ∧ u.pos.request = some (.seek p.cyl)
      ∧ OrderAsked (.cylinder p.cyl) u ∧ TouchesOnly [.arb, .pos, .drive] s u := by
  let t : State := { arrivedAt n s with arb := { s.arb with awaited := some p.cyl } }
  have hseek : seekReached n s = seekFor p.cyl (arrivedAt n s) := arbiterReached_elsewhere (s := arrivedAt n s) ha hr hp
  have hu : seekReached n s = attemptSeek p.cyl (sought p.cyl t) :=
    hseek.trans ((askSeek_idle (s := t) rfl).trans (beginSeek_known (m := n) (s := sought p.cyl t) rfl ht))
  obtain ⟨hpos, hasked, htouch⟩ := attemptSeek_step p.cyl (sought p.cyl t)
  simp only [hu, hpos]
  exact ⟨htouch .arb (by decide), trivial, rfl, hasked,
    ((touches_arb s _).mono (by decide)).trans (((touches_pos _ _).mono (by decide)).trans (htouch.mono (by decide)))⟩

/-- The claim that was withdrawn ends, charged where it was continuing a grant, and with nobody waiting the arbiter is FREE
(R73, R80). -/
theorem seekReached_withdrawn {c : Chan} {k : ClaimKind} {n : Nat} {s : State} (ha : s.arb.st = .claimed c k)
    (hr : ∀ d, s.arb.request.get d = none) (hq : s.arb.queue = []) :
    let u := seekReached n s
    u.arb = { s.arb with
        st := .free, awaited := none, stamp := none, clock := 0, releasePending := false,
        usage := if k = .continuing then chargedUsage s.arb.usage c s.arb.held else s.arb.usage }
      ∧ u.pos.st = .idle ∧ u.pos.request = none ∧ TouchesOnly [.arb, .pos, .drive, .relay] s u := by
  have hu : seekReached n s = claimEnd c (decide (k = .continuing)) (arrivedAt n s) :=
    arbiterReached_withdrawn (s := arrivedAt n s) ha (hr c)
  obtain ⟨hpos, harb, htouch⟩ := claimEnd_nobody (c := c) (s := arrivedAt n s) (decide (k = .continuing)) hq hr
  simp only [hu, hpos, harb, decide_eq_true_eq]
  exact ⟨rfl, rfl, rfl, ((touches_pos s _).mono (by decide)).trans (htouch.mono (by decide))⟩

/-! ## ON CYLINDER after a seek -/

/-- The part with ON CYLINDER high at the drive port (R15). -/
def onCylinderHigh (s : State) : State := { s with drive := { s.drive with onCylinder := true } }

theorem onCylinderHigh_touches (s : State) : TouchesOnly [.drive] s (onCylinderHigh s) := touches_drive s _

theorem exec_onCylinderRise (s : State) :
    exec .onCylinderRise s = .next (onCylinderJudged (onCylinderHigh s)) := rfl

theorem onCylinderJudged_seeking {n : Nat} {s : State} (hs : s.pos.st = .seeking) (ht : s.pos.ticks.isSome = true)
    (hr : s.pos.request = some (.seek n)) (he : s.drive.seekError = false) : onCylinderJudged s = seekReached n s := by
  simp [onCylinderJudged, acknowledged, soughtCyl, hs, ht, hr, he]

theorem exec_onCylinderRise_seeking {n : Nat} {s : State} (hs : s.pos.st = .seeking) (ht : s.pos.ticks.isSome = true)
    (hr : s.pos.request = some (.seek n)) (he : s.drive.seekError = false) :
    exec .onCylinderRise s = .next (seekReached n (onCylinderHigh s)) := by
  rw [exec_onCylinderRise, onCylinderJudged_seeking (s := onCylinderHigh s) hs ht hr he]

/-- The peer's record and the channel's own are all there are. -/
theorem no_request {c : Chan} {s : State} (h : s.arb.request.get c = none) (hp : s.arb.request.get (peer c) = none)
    (d : Chan) : s.arb.request.get d = none := by
  by_cases hd : d = c
  · rw [hd, h]
  · rw [eq_peer_of_ne hd, hp]

/-- Settles O40: by what has become of the claim's request. -/
theorem seekReachedGivesGrant : Obligations.SeekReachedGivesGrant := by
  intro c k n s hs ht hr he ha
  obtain ⟨hcyl, hretry, hlast, hhigh⟩ := seekReached_stands n (onCylinderHigh s)
  have hdrive := onCylinderHigh_touches s
  refine ⟨_, exec_onCylinderRise_seeking hs ht hr he, hcyl, hretry, hlast, hhigh, fun v hv => ?granted,
    fun p hp hne hf => ?retargeted, fun hc hpeer hq => ?withdrawn⟩
  case granted =>
    obtain ⟨hpos, harb, hview, htouch⟩ := seekReached_grants (s := onCylinderHigh s) ha hv
    exact ⟨hpos, harb, hview, (hdrive.mono (by simp)).trans htouch⟩
  case retargeted =>
    have htrouble : driveTroubled (onCylinderHigh s) = false := by simp [driveTroubled, onCylinderHigh, hf, he]
    obtain ⟨harb, hst, hrequest, hasked, htouch⟩ :=
      seekReached_retargets (s := onCylinderHigh s) ha hp hne htrouble
    exact ⟨harb, hst, hrequest, hasked, (hdrive.mono (by decide)).trans htouch⟩
  case withdrawn =>
    obtain ⟨harb, hst, hrequest, htouch⟩ :=
      seekReached_withdrawn (n := n) (s := onCylinderHigh s) ha (no_request hc hpeer) hq
    exact ⟨harb, hst, hrequest, (hdrive.mono (by decide)).trans htouch⟩

end Sys2Proof.Machine
end

section
/-! The steps of a calibration: what follows a clearing step and a recalibration, for Drive Watch, for a recovery, for a
preparation and after a failed retry (R85, R91, R92, R94 to R96, R100, R146). -/

namespace Sys2Proof.Machine

/-! ## A clearing step that succeeds -/

/-- FAULT and SEEK ERROR low at the drive port (R94; log 9). -/
def troubleCleared (s : State) : State := { s with drive := { s.drive with fault := false, seekError := false } }

theorem exec_clearingStepSucceeded {s : State} (hs : s.pos.st = .clearing) (ht : s.pos.ticks.isSome = true) :
    exec .clearingStepSucceeded s = .next (startRecalibration s.pos.stage (troubleCleared s)) := by
  simp only [exec, execClearingStepSucceeded, acknowledged, hs, ht, decide_true, Bool.and_self, if_true]
  rfl

theorem startRecalibration_step (g : Stage) (s : State) :
    let u := startRecalibration g s
    u.pos = { s.pos with st := .recalibrating, stage := g, ticks := none }
      ∧ u.drive.fault = s.drive.fault ∧ u.drive.seekError = s.drive.seekError
      ∧ OrderAsked .recalibrate u ∧ TouchesOnly [.pos, .drive] s u := by
  obtain ⟨hpos, hasked, htouch⟩ := requestOrder_step .recalibrate
    { s.pos with st := .recalibrating, stage := g, ticks := none } s
  have hdrive := (startRecalibration_decides g s).drive
  exact ⟨hpos, by rw [hdrive], by rw [hdrive], hasked, htouch⟩

/-! ## A recalibration that succeeds -/

/-- Positioner Control IDLE on cylinder 0 (R95). -/
def Positioner.atZero (p : Positioner) : Positioner := { p with cyl := some 0, st := .idle, ticks := none }

/-- The part at the end of a recalibration, before what it was made for follows (R95). -/
def standingAtZero (s : State) : State := { s with pos := s.pos.atZero }

theorem standingAtZero_touches (s : State) : TouchesOnly [.pos] s (standingAtZero s) := touches_pos s _

theorem exec_onCylinderRise_recalibrating {s : State} (hs : s.pos.st = .recalibrating) (ht : s.pos.ticks.isSome = true)
    (he : s.drive.seekError = false) : exec .onCylinderRise s = .next (recalibrated (onCylinderHigh s)) := by
  have hjudged : ∀ t : State, t.pos.st = .recalibrating → t.pos.ticks.isSome = true → t.drive.seekError = false →
      onCylinderJudged t = recalibrated t := fun t hs ht he => by simp [onCylinderJudged, acknowledged, hs, ht, he]
  rw [exec_onCylinderRise, hjudged (onCylinderHigh s) hs ht he]

/-! ## A calibration made for Drive Watch -/

/-- The part with Drive Watch's calibration made, before Drive Watch goes on (R100; log 24). -/
def calibrated (s : State) : State :=
  { standingAtZero s with
    pos := { s.pos.atZero with request := none, last := some ⟨.calibrated, some 0⟩ } }

theorem recalibrated_calibration {s : State} (hr : s.pos.request = some .calibration) :
    recalibrated s = watchCalibrated (calibrated s) := by
  rcases s with ⟨_, _, _, _, ⟨_, _, _, request⟩⟩
  obtain rfl : request = some .calibration := hr
  rfl

/-- The part with the arbiter resumed, where nobody waits (R85). -/
def resumed (s : State) : State := { s with arb := { s.arb with st := .free } }

theorem resume_nobody {s : State} (h : s.arb.st = .halted) (hq : s.arb.queue = [])
    (hr : s.arb.request = ⟨none, none⟩) : resume s = resumed s := by
  have hnobody : ∀ d, (resumed s).arb.request.get d = none := fun d => by
    rw [show (resumed s).arb.request = ⟨none, none⟩ from hr]
    cases d <;> rfl
  rw [resume, if_pos h]
  exact decideGrant_nobody (s := resumed s) hq hnobody

/-- With an empty queue no internal request is refused (R67). -/
theorem internalRefused_empty {k : InternalKind} {s : State} (hq : s.arb.queue = []) : internalRefused k s = false := by
  simp [internalRefused, hq]

/-- An internal request that arrives alone at a FREE arbiter is granted (R68). -/
theorem internalArrives_granted {k : InternalKind} {s : State} (hf : s.arb.st = .free) (hq : s.arb.queue = []) :
    internalArrives k s = grantInternal { s with arb := { s.arb with queue := [k] } } := by
  rw [← decideGrant_queue (s := { s with arb := { s.arb with queue := [k] } }) hf (by simp)]
  simp [internalArrives, hf, hq]

/-- An internal request granted on cylinder 0 begins its transfer (R81). -/
theorem grantInternal_atZero {s : State} (hc : s.pos.cyl = some 0) :
    (grantInternal s).arb = { s.arb with st := .internal } ∧ TouchesOnly [.map, .arb, .drive] s (grantInternal s) := by
  have hgrant : grantInternal s = beginTransfer { s with arb := { s.arb with st := .internal } } := if_pos hc
  have hbegin := beginTransfer_touches { s with arb := { s.arb with st := .internal } }
  rw [hgrant]
  exact ⟨hbegin .arb (by decide), ((touches_arb s _).mono (by decide)).trans (hbegin.mono (by decide))⟩

/-- The part in a reading state, its pulse gap anew (R143, R146). -/
def inReading (st : WatchState) (s : State) : State := { s with watch := { s.watch with st := st, gap := 0 } }

/-- A read asked for as a reading state is entered on cylinder 0, with nothing waiting, is under way at once (R81, R146). -/
theorem read_begins {k : InternalKind} {st : WatchState} {s : State} (hf : s.arb.st = .free) (hq : s.arb.queue = [])
    (hc : s.pos.cyl = some 0) :
    let u := internalArrives k (inReading st s)
    u.watch.st = st ∧ u.arb.st = .internal ∧ u.arb.queue = [k] ∧ TouchesOnly [.map, .arb, .drive, .watch] s u := by
  let t : State := { inReading st s with arb := { s.arb with queue := [k] } }
  have hu : internalArrives k (inReading st s) = grantInternal t := internalArrives_granted hf hq
  obtain ⟨harb, htouch⟩ := grantInternal_atZero (s := t) hc
  simp only [hu, harb]
  exact ⟨congrArg (·.st) (htouch .watch (by decide)), trivial, rfl,
    ((touches_watch s _).mono (by decide)).trans (((touches_arb _ _).mono (by decide)).trans (htouch.mono (by decide)))⟩

theorem enterReadingMap_empty {s : State} (hq : s.arb.queue = []) :
    enterReadingMap s = internalArrives .mapRead (inReading .readingMap s) :=
  if_neg (Bool.eq_false_iff.1 (internalRefused_empty hq))

theorem enterReadingLabel_empty {s : State} (hq : s.arb.queue = []) :
    enterReadingLabel s = internalArrives .labelRead (inReading .readingLabel s) :=
  if_neg (Bool.eq_false_iff.1 (internalRefused_empty hq))

/-- The next step owed, once the actuator stands on cylinder 0 and nothing waits (R146). -/
theorem nextStep_begins {s : State} (hf : s.arb.st = .free) (hq : s.arb.queue = []) (hc : s.pos.cyl = some 0) :
    let u := nextStep s
    u.pos = s.pos ∧ TouchesOnly [.view .a, .view .b, .map, .arb, .drive, .watch] s u
      ∧ (s.watch.mapOwed = true → u.watch.st = .readingMap ∧ u.arb.st = .internal ∧ u.arb.queue = [.mapRead])
      ∧ (s.watch.mapOwed = false → s.watch.labelOwed = true →
          u.watch.st = .readingLabel ∧ u.arb.st = .internal ∧ u.arb.queue = [.labelRead])
      ∧ (s.watch.mapOwed = false → s.watch.labelOwed = false → u.watch.st = .running ∧ u.arb.st = .free) := by
  cases hm : s.watch.mapOwed with
  | true =>
    obtain ⟨hwatch, hst, hqueue, htouch⟩ := read_begins (k := .mapRead) (st := .readingMap) hf hq hc
    have hu : nextStep s = internalArrives .mapRead (inReading .readingMap s) := by
      rw [nextStep, if_pos hm, enterReadingMap_empty hq]
    simp only [hu]
    exact ⟨htouch .pos (by decide), htouch.mono (by decide), fun _ => ⟨hwatch, hst, hqueue⟩, nofun, nofun⟩
  | false =>
    cases hl : s.watch.labelOwed with
    | true =>
      obtain ⟨hwatch, hst, hqueue, htouch⟩ := read_begins (k := .labelRead) (st := .readingLabel) hf hq hc
      have hu : nextStep s = internalArrives .labelRead (inReading .readingLabel s) := by
        rw [nextStep, if_neg (by simp [hm]), if_pos hl, enterReadingLabel_empty hq]
      simp only [hu]
      exact ⟨htouch .pos (by decide), htouch.mono (by decide), nofun, fun _ _ => ⟨hwatch, hst, hqueue⟩, nofun⟩
    | false =>
      have hu : nextStep s = enterRunning s := by
        rw [nextStep, if_neg (by simp [hm]), if_neg (by simp [hl])]
      obtain ⟨htouch, hwatch, -, -, -⟩ := enterRunning_entered s
      simp only [hu, hwatch]
      refine ⟨htouch .pos (by decide), htouch.mono (by decide), nofun, nofun, fun _ _ => ⟨rfl, ?_⟩⟩
      exact (congrArg (·.st) (htouch .arb (by decide))).trans hf

/-- A calibration asked for by Drive Watch is made (R85, R100, R146). -/
theorem recalibrated_made {s : State} (hr : s.pos.request = some .calibration) (hw : s.watch.st = .calibrating)
    (ha : s.arb.st = .halted) (hq : s.arb.queue = []) (hn : s.arb.request = ⟨none, none⟩) :
    let u := recalibrated s
    u.pos = { s.pos.atZero with request := none, last := some ⟨.calibrated, some 0⟩ }
      ∧ TouchesOnly [.view .a, .view .b, .map, .arb, .pos, .drive, .watch] s u
      ∧ (s.watch.mapOwed = true → u.watch.st = .readingMap ∧ u.arb.st = .internal ∧ u.arb.queue = [.mapRead])
      ∧ (s.watch.mapOwed = false → s.watch.labelOwed = true →
          u.watch.st = .readingLabel ∧ u.arb.st = .internal ∧ u.arb.queue = [.labelRead])
      ∧ (s.watch.mapOwed = false → s.watch.labelOwed = false → u.watch.st = .running ∧ u.arb.st = .free) := by
  have hu : recalibrated s = nextStep (resumed (calibrated s)) := by
    rw [recalibrated_calibration hr, watchCalibrated, if_pos (show (calibrated s).watch.st = .calibrating from hw),
      resume_nobody (s := calibrated s) ha hq hn]
  have hframe : TouchesOnly [.arb, .pos] s (resumed (calibrated s)) :=
    ((touches_pos s _).mono (by decide)).trans ((touches_arb _ _).mono (by decide))
  obtain ⟨hpos, htouch, howed⟩ := nextStep_begins (s := resumed (calibrated s)) rfl hq rfl
  simp only [hu]
  exact ⟨hpos, (hframe.mono (by decide)).trans (htouch.mono (by decide)), howed⟩

/-! ## A recovery or a preparation -/

/-- The part on cylinder 0 with the attempt to come: a retry in a recovery (R95, R96). -/
def attemptAhead (s : State) : State :=
  { standingAtZero s with
    pos := { s.pos.atZero with retry := s.pos.retry || decide (s.pos.stage = .recovery) } }

theorem attemptAhead_touches (s : State) : TouchesOnly [.pos] s (attemptAhead s) :=
  (standingAtZero_touches s).trans (touches_pos _ _)

theorem recalibrated_seek {n : Nat} {s : State} (hr : s.pos.request = some (.seek n))
    (hg : s.pos.stage = .recovery ∨ s.pos.stage = .preparation) :
    recalibrated s = seekFromZero n (attemptAhead s) := by
  have hahead : attemptAhead s =
      { standingAtZero s with
        pos := { s.pos.atZero with retry := if s.pos.stage = .recovery then true else s.pos.retry } } := by
    rcases hg with hg | hg <;> simp [attemptAhead, hg]
  rw [hahead]
  rcases s with ⟨_, _, _, _, ⟨_, _, _, request, _, _, _, stage⟩⟩
  obtain rfl : request = some (.seek n) := hr
  obtain rfl | rfl : stage = .recovery ∨ stage = .preparation := hg <;> rfl

theorem seekFromZero_elsewhere {n : Nat} (hn : n ≠ 0) (s : State) : seekFromZero n s = attemptSeek n s := if_neg hn

/-- A seek that goes on from cylinder 0 is reached at once there, and an attempt elsewhere (R92, R96). -/
theorem seekFromZero_cyl {s : State} (hc : s.pos.cyl = some 0) (n : Nat) : (seekFromZero n s).pos.cyl = some 0 := by
  by_cases hn : n = 0
  · rw [hn]
    exact (seekReached_stands 0 s).1
  · rw [seekFromZero_elsewhere hn, (attemptSeek_step n s).1]
    exact hc

/-! ## The closing steps of a failed retry -/

/-- The part once the closing steps have succeeded, before the arbiter is told (R96). -/
def closed (n : Nat) (s : State) : State :=
  { standingAtZero s with
    pos := { s.pos.atZero with retry := false, request := none, last := some ⟨.failedClaim, some n⟩ } }

theorem closed_touches (n : Nat) (s : State) : TouchesOnly [.pos] s (closed n s) :=
  (standingAtZero_touches s).trans (touches_pos _ _)

theorem recalibrated_closing {n : Nat} {s : State} (hr : s.pos.request = some (.seek n)) (hg : s.pos.stage = .closing) :
    recalibrated s = arbiterFailed n (closed n s) := by
  rcases s with ⟨_, _, _, _, ⟨_, _, _, request, _, _, _, stage⟩⟩
  obtain rfl : request = some (.seek n) := hr
  obtain rfl : stage = .closing := hg
  rfl

/-- A failed claim for the cylinder it asked for reaches its view (R74). -/
theorem arbiterFailed_claim {c : Chan} {k : ClaimKind} {n : Nat} {v : Vol} {s : State} (ha : s.arb.st = .claimed c k)
    (hr : s.arb.request.get c = some ⟨v, n⟩) : arbiterFailed n s = claimFailed c s := by
  simp only [arbiterFailed, ha, hr, if_true]

/-- A failed claim with nobody waiting: the view in STANDBY with SEEK ERROR, the arbiter FREE, and no charge (R35, R74,
R80). -/
theorem claimFailed_nobody {c : Chan} {k : ClaimKind} {s : State} (ha : s.arb.st = .claimed c k)
    (hp : s.arb.request.get (peer c) = none) (hq : s.arb.queue = []) :
    let u := claimFailed c s
    u.pos = { s.pos with held := none }
      ∧ u.view c = { s.view c with st := .standby, target := none, slotProt := false, seekError := true }
      ∧ u.arb = { s.arb with
          st := .free, request := ⟨none, none⟩, awaited := none, stamp := none, clock := 0, releasePending := false }
      ∧ TouchesOnly [.view c, .arb, .pos, .drive, .relay] s u := by
  let t : State := setView c { (s.view c).seekFailed with st := .standby } s
  let r : State := removeRequest c t
  have hr : r.arb = { s.arb with request := ⟨none, none⟩ } := by
    have hends : ¬(t.arb.st = .owned (peer c) ∧ t.arb.request.get c ≠ none ∧ t.arb.queue = []) :=
      fun h => by simp [t, ha] at h
    have hempty : s.arb.request.set c none = ⟨none, none⟩ := Pair.ext_get fun d =>
      (no_request (c := c) (s := withRequest c none s) (by simp [withRequest]) (by simpa [withRequest] using hp) d).trans
        (by cases d <;> rfl)
    simp only [r, removeRequest_eq, withoutRequest, hends, if_false]
    simp [t, hempty]
  have hnone : ∀ d, r.arb.request.get d = none := fun d => by rw [hr]; cases d <;> rfl
  have hqueue : r.arb.queue = [] := by rw [hr]; exact hq
  have hframe : TouchesOnly [.view c, .arb] s r := by
    have hset : TouchesOnly [.view c, .arb] s t := (touches_view c _ s).mono (by simp)
    exact hset.trans ((removeRequest_eq c t ▸ touches_arb t _).mono (by simp))
  obtain ⟨hpos, harb, htouch⟩ := claimEnd_nobody (c := c) (s := r) false hqueue hnone
  have hview : r.view c = { s.view c with st := .standby, target := none, slotProt := false, seekError := true } := by
    have hkept : r.view c = t.view c := by simp only [r, removeRequest_eq]; rfl
    rw [hkept]
    exact setView_view_self c _ s
  refine ⟨?_, ?_, ?_, (hframe.mono (by simp)).trans (htouch.mono (by simp))⟩
  · exact hpos.trans (by rw [hframe .pos (by simp)])
  · exact Eq.trans (htouch (.view c) (by simp)) hview
  · exact harb.trans (by rw [hr]; rfl)

/-! ## No request in hand -/

theorem recalibrated_none {s : State} (hr : s.pos.request = none) :
    recalibrated s = takeHeld (standingAtZero s) := by
  rcases s with ⟨_, _, _, _, ⟨_, _, _, request⟩⟩
  obtain rfl : request = none := hr
  rfl

/-- The part with the held seek in hand (R91). -/
def heldTaken (n : Nat) (s : State) : State :=
  { s with pos := { s.pos with request := some (.seek n), held := none, retry := false } }

/-- The held seek, its cylinder not 0, begins with its attempt where the drive is untroubled (R91, R95). -/
theorem takeHeld_begins {n : Nat} {s : State} (hh : s.pos.held = some n) (hn : n ≠ 0) (ht : driveTroubled s = false) :
    takeHeld s = attemptSeek n (heldTaken n s) := by
  have htrouble : ¬driveTroubled (heldTaken n s) = true := by
    rw [show driveTroubled (heldTaken n s) = false from ht]
    decide
  have htake : takeHeld s = if driveTroubled (heldTaken n s) then startClearing .preparation (heldTaken n s)
      else seekFromZero n (heldTaken n s) := by
    simp only [takeHeld, hh]
    rfl
  rw [htake, if_neg htrouble, seekFromZero, if_neg hn]

/-- Settles O41: a clearing step, then a recalibration by what it was made for. -/
theorem stepsOfACalibration : Obligations.StepsOfACalibration := by
  intro s ht
  refine ⟨fun hs => ?clearing, fun hs he => ?recalibration⟩
  case clearing =>
    obtain ⟨hpos, hfault, herror, hasked, htouch⟩ := startRecalibration_step s.pos.stage (troubleCleared s)
    exact ⟨_, exec_clearingStepSucceeded hs ht, hpos, hfault, herror, hasked,
      ((touches_drive s _).mono (by decide)).trans htouch⟩
  case recalibration =>
    let d := onCylinderHigh s
    have hexec : exec .onCylinderRise s = .next (recalibrated d) := exec_onCylinderRise_recalibrating hs ht he
    have hdrive : TouchesOnly [.drive] s d := onCylinderHigh_touches s
    refine ⟨fun hr hw ha hq hn => ?calibration, fun n hr hg => ?attempt, fun n c k v hr hg ha hreq hp hq => ?closing,
      fun n hr hh hn hf => ?held, fun hr hh => ?idle⟩
    case calibration =>
      obtain ⟨hpos, htouch, howed⟩ := recalibrated_made (s := d) hr hw ha hq hn
      refine ⟨_, hexec, ?_, ?_, ?_, ?_, (hdrive.mono (by decide)).trans htouch, howed⟩ <;> rw [hpos] <;> rfl
    case attempt =>
      have hahead : TouchesOnly [.pos, .drive] s (attemptAhead d) :=
        (hdrive.mono (by decide)).trans ((attemptAhead_touches d).mono (by decide))
      rw [recalibrated_seek (s := d) hr hg] at hexec
      refine ⟨_, hexec, seekFromZero_cyl rfl n, fun hn => ?elsewhere, ?there⟩
      case elsewhere =>
        obtain ⟨hpos, hasked, htouch⟩ := attemptSeek_step n (attemptAhead d)
        rw [seekFromZero_elsewhere hn]
        exact ⟨hpos, hasked, hahead.trans htouch⟩
      case there =>
        rintro c k v rfl ha hreq
        obtain ⟨hpos, harb, hview, htouch⟩ := seekReached_grants (s := attemptAhead d) ha hreq
        have hu : seekFromZero 0 (attemptAhead d) = seekReached 0 (attemptAhead d) := rfl
        rw [hu, hpos, harb, hview]
        exact ⟨rfl, rfl, rfl, rfl, rfl, rfl, (hahead.mono (by simp)).trans htouch⟩
    case closing =>
      obtain ⟨hpos, hview, harb, htouch⟩ := claimFailed_nobody (s := closed n d) ha hp hq
      rw [recalibrated_closing (s := d) hr hg, arbiterFailed_claim (s := closed n d) ha hreq] at hexec
      exact ⟨_, hexec, hpos, hview, harb,
        (hdrive.mono (by simp)).trans (((closed_touches n d).mono (by simp)).trans htouch)⟩
    case held =>
      have htrouble : driveTroubled (standingAtZero d) = false := by
        simp [driveTroubled, standingAtZero, d, onCylinderHigh, hf, he]
      obtain ⟨hpos, hasked, htouch⟩ := attemptSeek_step n (heldTaken n (standingAtZero d))
      have hframe : TouchesOnly [.pos, .drive] s (heldTaken n (standingAtZero d)) :=
        (hdrive.mono (by decide)).trans (((standingAtZero_touches d).trans (touches_pos _ _)).mono (by decide))
      rw [recalibrated_none (s := d) hr, takeHeld_begins (s := standingAtZero d) hh hn htrouble] at hexec
      exact ⟨_, hexec, hpos, hasked, hframe.trans htouch⟩
    case idle =>
      have hnone : takeHeld (standingAtZero d) = standingAtZero d := by
        simp only [takeHeld, show (standingAtZero d).pos.held = none from hh]
      rw [hexec, recalibrated_none (s := d) hr, hnone]
      rfl

end Sys2Proof.Machine
end

section
/-! An attempt that fails, and its events (R93, R96, R102). -/

namespace Sys2Proof.Machine

/-! ## An edge at the drive port -/

/-- What an edge at the drive port has done before it is judged: a level, and of the flags only these. -/
structure Edge (es : List SoleEvent) (s t : State) : Prop where
  frame  : TouchesOnly [.drive, .ev] s t
  raises : OnlyRaises (es.map .sole) s t

theorem OnlyRaises.refl (l : List Flag) (s : State) : OnlyRaises l s s := ⟨rfl, rfl, fun _ _ => rfl⟩

theorem Edge.trans {es : List SoleEvent} {s t u : State} (h : Edge es s t) (k : Edge es t u) : Edge es s u :=
  ⟨h.frame.trans k.frame, h.raises.trans k.raises⟩

theorem Edge.mono {es fs : List SoleEvent} {s t : State} (h : Edge es s t) (hs : es ⊆ fs) : Edge fs s t :=
  ⟨h.frame, h.raises.mono (List.map_subset _ hs)⟩

theorem Edge.pos {es : List SoleEvent} {s t : State} (h : Edge es s t) : t.pos = s.pos := h.frame .pos (by decide)

theorem Edge.view {es : List SoleEvent} {s t : State} (h : Edge es s t) (c : Chan) : t.view c = s.view c :=
  h.frame (.view c) (by simp)

theorem Edge.spares_open {es : List SoleEvent} {s t : State} (h : Edge es s t) {e : SoleEvent} (he : e ∉ es)
    (ho : Open (.sole e) s) : Open (.sole e) t :=
  h.raises.spares_open (by simpa using he) ho

/-- An edge that changes a level alone. -/
theorem edge_drive (es : List SoleEvent) (s : State) (d : DrivePort) : Edge es s { s with drive := d } :=
  ⟨(touches_drive s d).mono (by decide), .refl _ s⟩

theorem edge_raiseSole (e : SoleEvent) (p : PartAddr) (n : Nat) (s : State) : Edge [e] s (raiseSole e p n s) :=
  ⟨(touches_ev s _).mono (by decide), raiseSole_onlyRaises e p n s⟩

/-- The part with SEEK ERROR high at the drive port (R15). -/
def seekErrorHigh (s : State) : State := { s with drive := { s.drive with seekError := true } }

/-- The part with FAULT high at the drive port, E13 raised in RUNNING (R15). -/
def faultHigh (s : State) : State := raiseFaultLine { s with drive := { s.drive with fault := true } }

theorem seekErrorHigh_edge (es : List SoleEvent) (s : State) : Edge es s (seekErrorHigh s) := edge_drive es s _

theorem onCylinderHigh_edge (es : List SoleEvent) (s : State) : Edge es s (onCylinderHigh s) := edge_drive es s _

theorem faultHigh_edge (s : State) : Edge [.driveFaultLine] s (faultHigh s) := by
  refine (edge_drive _ s { s.drive with fault := true }).trans ?_
  unfold faultHigh raiseFaultLine
  split
  · exact edge_raiseSole _ _ _ _
  · exact ⟨.refl _ _, .refl _ _⟩

/-- E13 at a rise of FAULT in RUNNING, with the state of Positioner Control (R15, R155, R174). -/
theorem faultHigh_records {s : State} (hw : s.watch.st = .running) (ho : Open (.sole .driveFaultLine) s) :
    Recorded (.sole .driveFaultLine) s.pos.st.code (faultHigh s) := by
  rw [faultHigh, raiseFaultLine, if_pos hw]
  exact recorded_raise _ _ _ _ { s with drive := { s.drive with fault := true } } ho

/-! ## The events of a failed attempt -/

/-- E9 of an attempt without an answer (R102). -/
def raiseTimeout (o : SeekOutcome) (s : State) : State :=
  if o = .noAnswer then raiseSole .seekTimeout (cylSelAddr (soughtCyl s) s.pos.lastSel) s.pos.retry.toNat s else s

/-- E10 of a failed attempt: of each that had an answer, and of a retry (R102). -/
def raiseFailure (o : SeekOutcome) (cyl : Nat) (s : State) : State :=
  if o ≠ .noAnswer ∨ s.pos.retry = true then raiseSole .seekError (cylAddr cyl) s.pos.retry.toNat s else s

theorem raiseAttempt_eq (o : SeekOutcome) (s : State) :
    raiseAttempt o s = raiseFailure o (soughtCyl s) (raiseTimeout o s) := by
  by_cases h : o = .noAnswer <;> simp only [raiseAttempt, raiseFailure, raiseTimeout, h] <;> rfl

theorem raiseTimeout_edge (o : SeekOutcome) (s : State) : Edge [.seekTimeout] s (raiseTimeout o s) := by
  unfold raiseTimeout
  split
  · exact edge_raiseSole _ _ _ s
  · exact ⟨.refl _ s, .refl _ s⟩

theorem raiseFailure_edge (o : SeekOutcome) (n : Nat) (s : State) : Edge [.seekError] s (raiseFailure o n s) := by
  unfold raiseFailure
  split
  · exact edge_raiseSole _ _ _ s
  · exact ⟨.refl _ s, .refl _ s⟩

theorem raiseAttempt_edge (o : SeekOutcome) (s : State) : Edge [.seekTimeout, .seekError] s (raiseAttempt o s) := by
  rw [raiseAttempt_eq]
  exact ((raiseTimeout_edge o s).mono (by simp)).trans ((raiseFailure_edge o _ _).mono (by simp))

/-- E9 is raised where there was no answer (R102). -/
theorem raiseAttempt_timeout (o : SeekOutcome) (s : State) :
    (o = .noAnswer → Open (.sole .seekTimeout) s →
        Recorded (.sole .seekTimeout) s.pos.retry.toNat (raiseAttempt o s))
      ∧ (o ≠ .noAnswer → (raiseAttempt o s).ev.record (.sole .seekTimeout) = s.ev.record (.sole .seekTimeout)) := by
  have hlater := (raiseFailure_edge o (soughtCyl s) (raiseTimeout o s)).raises.spares (f := .sole .seekTimeout) (by simp)
  rw [raiseAttempt_eq]
  refine ⟨fun ho hopen => ?_, fun ho => ?_⟩
  · unfold Recorded
    rw [hlater, raiseTimeout, if_pos ho]
    exact recorded_raise _ _ _ _ s hopen
  · rw [hlater, raiseTimeout, if_neg ho]

/-- E10 is raised where there was an answer, and for a retry (R102). -/
theorem raiseAttempt_failure (o : SeekOutcome) (s : State) :
    (o ≠ .noAnswer ∨ s.pos.retry = true → Open (.sole .seekError) s →
        Recorded (.sole .seekError) s.pos.retry.toNat (raiseAttempt o s))
      ∧ (o = .noAnswer → s.pos.retry = false →
          (raiseAttempt o s).ev.record (.sole .seekError) = s.ev.record (.sole .seekError)) := by
  have hfirst := raiseTimeout_edge o s
  rw [raiseAttempt_eq, ← hfirst.pos]
  refine ⟨fun ho hopen => ?_, fun ho hr => ?_⟩
  · rw [raiseFailure, if_pos ho]
    exact recorded_raise _ _ _ _ _ (hfirst.spares_open (by decide) hopen)
  · have hnone : ¬(o ≠ .noAnswer ∨ (raiseTimeout o s).pos.retry = true) :=
      not_or.2 ⟨not_not.2 ho, by simp [hr]⟩
    rw [raiseFailure, if_neg hnone]
    exact hfirst.raises.spares (by simp)

/-! ## The attempt that fails -/

/-- Positioner Control once an attempt has failed: the recovery, or after a retry the closing steps, the position UNKNOWN
(R93, R96). -/
def Positioner.afterFailure (p : Positioner) (o : SeekOutcome) (n : Nat) : Positioner :=
  { p with
    cyl := none, st := .clearing, stage := if p.retry then .closing else .recovery, ticks := none, last := some ⟨o, some n⟩ }

theorem attemptFailed_effect {n : Nat} {s : State} (hr : s.pos.request = some (.seek n)) (o : SeekOutcome) :
    let u := attemptFailed o s
    u.pos = s.pos.afterFailure o n ∧ OrderAsked .faultClear u ∧ TouchesOnly [.pos, .drive, .ev] s u
      ∧ u.ev = (raiseAttempt o s).ev := by
  have hedge := raiseAttempt_edge o s
  have hu : attemptFailed o s =
      requestOrder .faultClear { raiseAttempt o s with pos := s.pos.afterFailure o n } := by
    have hsought : soughtCyl s = n := by simp [soughtCyl, hr]
    simp only [attemptFailed, startClearing, hedge.pos, hsought]
    rfl
  obtain ⟨hpos, hasked, htouch⟩ := requestOrder_step .faultClear (s.pos.afterFailure o n) (raiseAttempt o s)
  simp only [hu]
  exact ⟨hpos, hasked, (hedge.frame.mono (by decide)).trans (htouch.mono (by decide)), htouch .ev (by decide)⟩

theorem exec_seekErrorRise (w : Carried) (s : State) :
    exec (.seekErrorRise w) s = .next (seekErrorJudged w (seekErrorHigh s)) := rfl

theorem exec_driveFaultLine (w : Carried) (s : State) :
    exec (.driveFaultLine w) s = .next (faultJudged w (faultHigh s)) := rfl

theorem seekErrorJudged_seeking {w : Carried} {s : State} (hs : s.pos.st = .seeking) (ht : s.pos.ticks.isSome = true)
    (hc : s.drive.onCylinder = false) : seekErrorJudged w s = attemptFailed .seekError s := by
  simp [seekErrorJudged, acknowledged, hs, ht, hc]

theorem faultJudged_seeking {w : Carried} {s : State} (hs : s.pos.st = .seeking) (ht : s.pos.ticks.isSome = true) :
    faultJudged w s = attemptFailed .fault s := by
  simp [faultJudged, acknowledged, hs, ht]

theorem exec_seekNoAnswer {s : State} (hs : s.pos.st = .seeking) (ht : s.pos.ticks = some 150) :
    exec .seekNoAnswer s = .next (attemptFailed .noAnswer s) := by
  simp [exec, execSeekNoAnswer, limitReached, hs, ht]

/-- Each failure of an attempt: the edge that gives it, or none at the time limit, and then its outcome (R93). -/
theorem exec_attemptFails {w : Carried} {s : State} {i : Instr} {o : SeekOutcome} (hs : s.pos.st = .seeking)
    (h : (i = .seekErrorRise w ∧ o = .seekError ∧ s.pos.ticks.isSome = true ∧ s.drive.onCylinder = false)
      ∨ (i = .driveFaultLine w ∧ o = .fault ∧ s.pos.ticks.isSome = true)
      ∨ (i = .seekNoAnswer ∧ o = .noAnswer ∧ s.pos.ticks = some 150)) :
    ∃ t, exec i s = .next (attemptFailed o t) ∧ Edge [.driveFaultLine] s t ∧ (o = .fault → t = faultHigh s) := by
  rcases h with ⟨rfl, rfl, ht, hc⟩ | ⟨rfl, rfl, ht⟩ | ⟨rfl, rfl, ht⟩
  · refine ⟨seekErrorHigh s, ?_, seekErrorHigh_edge _ s, nofun⟩
    rw [exec_seekErrorRise, seekErrorJudged_seeking (s := seekErrorHigh s) hs ht hc]
  · have hedge := faultHigh_edge s
    refine ⟨faultHigh s, ?_, hedge, fun _ => rfl⟩
    rw [exec_driveFaultLine, faultJudged_seeking (by rw [hedge.pos, hs]) (by rw [hedge.pos, ht])]
  · exact ⟨s, exec_seekNoAnswer hs ht, ⟨.refl _ s, .refl _ s⟩, nofun⟩

/-- Settles O42: the edge, then what a failed attempt does, its events one by one. -/
theorem failedAttemptBeginsRecovery : Obligations.FailedAttemptBeginsRecovery := by
  intro w n s i o hs hr h
  obtain ⟨t, hexec, hedge, hfault⟩ := exec_attemptFails hs h
  have hattempt := raiseAttempt_edge o t
  obtain ⟨hpos, hasked, htouch, hev⟩ := attemptFailed_effect (s := t) (by rw [hedge.pos]; exact hr) o
  obtain ⟨htimeout, hanswered⟩ := raiseAttempt_timeout o t
  obtain ⟨hfailed, hfirst⟩ := raiseAttempt_failure o t
  rw [hedge.pos] at hpos hfailed hfirst htimeout
  refine ⟨_, hexec, hpos, hasked, (hedge.frame.mono (by decide)).trans htouch, ?raises, ?_, ?_, ?_, ?_, ?line⟩
  case raises =>
    have hraises := (hedge.raises.mono (m := [.sole .seekTimeout, .sole .seekError, .sole .driveFaultLine]) (by simp)).trans
      (hattempt.raises.mono (by simp))
    simpa only [OnlyRaises, hev] using hraises
  case line =>
    intro ho hw hopen
    have hline := faultHigh_records hw hopen
    rw [← hfault ho, hs] at hline
    unfold Recorded
    rw [hev, hattempt.raises.spares (by simp)]
    exact hline
  all_goals simp only [Recorded, hev]
  · exact fun ho hopen => htimeout ho (hedge.spares_open (by decide) hopen)
  · exact fun ho => (hanswered ho).trans (hedge.raises.spares (by simp))
  · exact fun ho hopen => hfailed ho (hedge.spares_open (by decide) hopen)
  · exact fun ho hn => (hfirst ho hn).trans (hedge.raises.spares (by simp))

end Sys2Proof.Machine
end

section
/-! What the Map Store keeps where a gate ends or a transfer is cut: its images and their states (`Begins`), and the drive
given up at a failed step or a contradictory answer (R60, R93 to R96, R102). -/

namespace Sys2Proof.Machine

/-! ## A transfer that begins -/

/-- A transfer that waits for its HEAD order or for sector 0: no gate of its own is up (R58). -/
def Xfer.begun (x : Xfer) : Prop := ∃ v, x = .headOrder v ∨ x = .awaitSector v

/-- The Map Store is kept, but for a transfer that a decision begins (R81). -/
structure Begins (s t : State) : Prop where
  map  : t.map = { s.map with xfer := t.map.xfer }
  xfer : t.map.xfer = s.map.xfer ∨ t.map.xfer.begun

theorem Begins.of_map {s t : State} (h : t.map = s.map) : Begins s t := ⟨by rw [h], .inl (by rw [h])⟩

theorem Begins.refl (s : State) : Begins s s := .of_map rfl

theorem Begins.trans {s t u : State} (h : Begins s t) (k : Begins t u) : Begins s u := by
  have hmap := k.map
  rw [h.map] at hmap
  refine ⟨hmap, ?_⟩
  rcases k.xfer with hx | hx
  · rw [hx]
    exact h.xfer
  · exact .inr hx

theorem Begins.after {s t u : State} (k : Begins t u) (h : t.map = s.map) : Begins s u := (Begins.of_map h).trans k

/-- The states of the map and of the label, and the active map, are kept. -/
theorem Begins.images {s t : State} (h : Begins s t) :
    t.map.mapState = s.map.mapState ∧ t.map.labelState = s.map.labelState ∧ t.map.activeMap = s.map.activeMap := by
  rw [h.map]
  exact ⟨rfl, rfl, rfl⟩

theorem beginTransfer_begins (s : State) : Begins s (beginTransfer s) := by
  refine ⟨(beginTransfer_decides s).map, ?_⟩
  unfold beginTransfer
  split
  · exact .inl rfl
  · exact .inr ⟨_, beginSector_xfer _ s⟩

theorem grantInternal_begins (s : State) : Begins s (grantInternal s) := by
  unfold grantInternal
  simp only
  split
  · exact (beginTransfer_begins _).after rfl
  · exact .of_map (seekFor_touches 0 _ .map (by decide))

theorem decideGrant_begins (s : State) : Begins s (decideGrant s) := by
  rcases decideGrant_cases s with h | ⟨-, h⟩ | ⟨z, -, h⟩ | ⟨z, -, h⟩ <;> rw [h]
  · exact .refl s
  · exact grantInternal_begins s
  · exact .of_map (grantTo_touches z s .map (by simp))
  · exact .of_map (grantTo_touches z (raiseFor z .waitLimitGrant .absent (s.view z).wait s) .map (by simp))

theorem toFree_begins (s : State) : Begins s (toFree s) := (decideGrant_begins _).after rfl

theorem preempt_map (c : Chan) (s : State) : (preempt c s).map = s.map :=
  giveCause_touches c .preempted s .map (by simp)

theorem grantEnd_begins (c : Chan) (k : EndCause) (s : State) : Begins s (grantEnd c k s) := by
  have hbudget : (if k = .budget then preempt c (charge c s) else charge c s).map = s.map := by
    split
    · exact preempt_map c (charge c s)
    · rfl
  unfold grantEnd
  simp only
  refine (toFree_begins _).after (Eq.trans (b := State.map _) ?_ hbudget)
  by_cases hk : k = .reseek ∨ k = .giveUp
  · rw [if_pos hk]; rfl
  · rw [if_neg hk]; exact viewGrantEnd_touches c _ .map (by simp)

theorem claimEnd_begins (c : Chan) (b : Bool) (s : State) : Begins s (claimEnd c b s) := by
  refine (toFree_begins _).after ?_
  cases b <;> rfl

theorem judgeRelease_begins (s : State) : Begins s (judgeRelease s) := by
  unfold judgeRelease
  split
  · split
    · split
      · exact grantEnd_begins _ _ s
      · exact .refl s
    · exact .refl s
  · exact .refl s

theorem reseek_begins (c : Chan) (p : Place) (s : State) : Begins s (reseek c p s) := by
  unfold reseek
  split
  · exact grantEnd_begins c _ s
  · exact .of_map (seekFor_touches _ _ .map (by decide))

theorem requestArrives_begins (c : Chan) (p : Place) (s : State) : Begins s (requestArrives c p s) := by
  unfold requestArrives
  simp only
  split
  · exact (decideGrant_begins _).after rfl
  · split
    · unfold retargetHeld
      split <;> exact .of_map rfl
    · exact .of_map rfl
  · split
    · exact (reseek_begins c p _).after rfl
    · split
      · exact .of_map rfl
      · exact (judgeRelease_begins _).after rfl
  · exact .of_map rfl
  · exact .of_map rfl

theorem withdrawRequest_begins (c : Chan) (s : State) : Begins s (withdrawRequest c s) := by
  have hrecord : Begins s (removeRequest c s) := by
    rw [removeRequest_eq]
    exact .of_map rfl
  unfold withdrawRequest
  simp only
  split
  · split
    · exact hrecord.trans (claimEnd_begins _ _ _)
    · exact hrecord
  · exact hrecord

/-! ## Releases, removals, and the end of a gate -/

theorem releaseTest_begins (c : Chan) (s : State) : Begins s (releaseTest c s) := by
  unfold releaseTest
  split
  · split
    · exact .of_map rfl
    · unfold letThrough
      simp only
      split
      · exact (requestArrives_begins c _ _).after rfl
      · exact .of_map rfl
  · exact .refl s

theorem removeEntries_begins (test : Entry → Bool) (s : State) : Begins s (removeEntries test s) := by
  have h : Begins s { s with ilock := s.ilock.remove test } := .of_map rfl
  unfold removeEntries
  simp only
  split <;> split
  · exact (h.trans (releaseTest_begins .a _)).trans (releaseTest_begins .b _)
  · exact h.trans (releaseTest_begins .b _)
  · exact h.trans (releaseTest_begins .a _)
  · exact h

theorem appendEntry_begins (c : Chan) (p : Place) (s : State) : Begins s (appendEntry c p s) := by
  unfold appendEntry
  simp only
  split
  · exact (withdrawRequest_begins _ _).after rfl
  · exact .of_map rfl

theorem overflowOldest_begins (c : Chan) (s : State) : Begins s (overflowOldest c s) := by
  unfold overflowOldest
  split
  · exact .refl s
  · exact (removeEntries_begins _ _).after rfl

theorem fullSharedWrite_begins (c : Chan) (p : Place) (s : State) : Begins s (fullSharedWrite c p s) := by
  unfold fullSharedWrite
  split
  · exact .of_map rfl
  · split
    · split <;> exact .of_map rfl
    · split
      · exact (appendEntry_begins c p _).after rfl
      · exact (overflowOldest_begins c s).trans ((appendEntry_begins c p _).after rfl)

theorem reportInterlock_begins (g : GateRecord) (s : State) : Begins s (reportInterlock g s) := by
  unfold reportInterlock
  split
  · exact fullSharedWrite_begins _ _ s
  · exact .refl s

theorem endGate_begins (k : TearCause) (w : Carried) (s : State) : Begins s (endGate k w s) := by
  cases hg : s.relay.gate with
  | none => simp only [endGate, hg]; exact .refl s
  | some g =>
    have hjudged : Begins s (judgeGate (g.carry w) k (dropped g w s)) :=
      .of_map (Eq.trans ((judgeGate_marks _ k _).frame .map (by decide)) (dropped_touches g w s .map (by simp)))
    rw [endGate_eq hg]
    exact (hjudged.trans (reportInterlock_begins _ _)).trans
      (.of_map ((reportMailbox_posts _ _).frame .map (by decide)))

/-! ## A transfer that is cut, and its commit -/

theorem showInternalWrite_touches (v : Vol) (w : Carried) (s : State) :
    TouchesOnly [.drive] s (showInternalWrite v w s) := by
  unfold showInternalWrite
  split
  · exact touches_drive s _
  · exact .refl _ s

theorem addTorn_touches (e : TornEntry) (s : State) : TouchesOnly [.relay, .ev] s (addTorn e s) := by
  unfold addTorn
  simp only
  split
  · split
    · exact ((touches_ev s _).mono (by decide)).trans ((touches_relay _ _).mono (by decide))
    · exact (touches_relay s _).mono (by decide)
  · exact (touches_relay s _).mono (by decide)

theorem cutInternal_touches (k : TearCause) (w : Carried) (s : State) :
    TouchesOnly [.drive, .relay, .ev] s (cutInternal k w s) := by
  unfold cutInternal
  split
  · rename_i v _
    have hdrop := (showInternalWrite_touches v w s).trans (dropDriveGates_touches _)
    simp only
    split
    · exact (hdrop.mono (by decide)).trans ((touches_relay _ _).mono (by decide))
    · exact (hdrop.mono (by decide)).trans ((addTorn_touches _ _).mono (by decide))
  · exact (dropDriveGates_touches s).mono (by decide)
  all_goals exact .refl _ s

/-- A commit that fails is no longer in flight (R168). -/
theorem commitFails_map (n : Nat) (p : PartAddr) (s : State) :
    (commitFails n p s).map = { s.map with commit := none } := by
  unfold commitFails
  split
  · rfl
  · rename_i h
    rw [Option.not_isSome_iff_eq_none] at h
    rw [← h]

theorem runningCommitFails_map (b : Bool) (w : Carried) (s : State) :
    (runningCommitFails b w s).map = { s.map with commit := none } := by
  unfold runningCommitFails
  simp only
  split
  · split
    · exact commitFails_map _ _ s
    · split
      · exact commitFails_map _ _ s
      · exact commitFails_map _ _ _
  all_goals exact commitFails_map _ _ _

/-- A queue that is emptied leaves the images and their states (R60, R83). -/
theorem emptyQueue_images (k : TearCause) (w : Carried) (s : State) :
    let m := (emptyQueue k w s).map
    m.mapState = s.map.mapState ∧ m.labelState = s.map.labelState ∧ m.activeMap = s.map.activeMap := by
  have hcut : (cutInternal k w s).map = s.map := cutInternal_touches k w s .map (by decide)
  have hm : (emptyQueue k w s).map = { (removedCommitFails w (cutInternal k w s)).map with xfer := .none } := rfl
  simp only [hm]
  unfold removedCommitFails
  split
  · rw [runningCommitFails_map, hcut]
    exact ⟨rfl, rfl, rfl⟩
  · split
    · rw [commitFails_map, hcut]
      exact ⟨rfl, rfl, rfl⟩
    · rw [hcut]
      exact ⟨rfl, rfl, rfl⟩

theorem viewsUnusable_begins (s : State) : Begins s (viewsUnusable s) := by
  have hview : ∀ c t, (viewUnusable c t).map = t.map := fun c t => by unfold viewUnusable; split <;> rfl
  exact (removeEntries_begins _ _).after ((hview .b _).trans (hview .a s))

/-! ## The drive given up -/

/-- The drive given up, its state and its halts aside: Drive Watch is in DRIVE FAULT, and the images stand (R96, R152). -/
theorem enterDriveFault_keeps (s : State) :
    let u := enterDriveFault s
    u.watch = { s.watch with st := .driveFault } ∧ u.map.mapState = s.map.mapState
      ∧ u.map.labelState = s.map.labelState ∧ u.map.activeMap = s.map.activeMap := by
  let p : State := { s with
    free := s.free + 1,
    pos := { s.pos with last := some ⟨.driveFault,
      if (Config.driveFaultCylinder s.free).val ≤ 407 then some (Config.driveFaultCylinder s.free).val else none⟩ } }
  let e := endGate .driveFault .nothing p
  let q := emptyQueue .driveFault .nothing e
  let f := setWatchState .driveFault q
  have hu : enterDriveFault s = viewsUnusable (halt f) := rfl
  have hwatch : q.watch = s.watch :=
    Eq.trans ((emptyQueue_moves _ _ e).frame .watch (by decide)) ((endGate_moves _ _ p).frame .watch (by decide))
  have hdown : (viewsUnusable (halt f)).watch = f.watch :=
    Eq.trans ((viewsUnusable_moves _).frame .watch (by decide)) ((halt_moves f).frame .watch (by decide))
  obtain ⟨hmap, hlabel, hactive⟩ := (viewsUnusable_begins (halt f)).images
  obtain ⟨qmap, qlabel, qactive⟩ := emptyQueue_images .driveFault .nothing e
  obtain ⟨emap, elabel, eactive⟩ := (endGate_begins .driveFault .nothing p).images
  have hhalt := halt_map f
  simp only [hu]
  refine ⟨?_, ?_, ?_, ?_⟩
  · rw [hdown]
    exact congrArg (fun x : Watch => { x with st := .driveFault }) hwatch
  · rw [hmap, hhalt]
    exact qmap.trans emap
  · rw [hlabel, hhalt]
    exact qlabel.trans elabel
  · rw [hactive, hhalt]
    exact qactive.trans eactive

/-- The drive given up after an event: `Down`, the images kept, and the event recorded (R96, R102, R152). -/
theorem driveGivenUp {es : List SoleEvent} {s t : State} (h : Edge es s t) {f : SoleEvent} (hf : f ∉ es) (p : PartAddr)
    (n : Nat) :
    let u := enterDriveFault (raiseSole f p n t)
    u.watch = { s.watch with st := .driveFault } ∧ u.arb.queue = []
      ∧ u.map.mapState = s.map.mapState ∧ u.map.labelState = s.map.labelState
      ∧ u.map.activeMap = s.map.activeMap ∧ Down s u
      ∧ TouchesOnly (.port .a :: .port .b :: .mbox :: .watch :: Part.reached) s u
      ∧ (Open (.sole f) s → Recorded (.sole f) n u) := by
  have hrecord : Open (.sole f) s → Recorded (.sole f) n (raiseSole f p n t) :=
    fun hopen => recorded_raise _ _ p n t (h.spares_open hf hopen)
  have hframe : TouchesOnly [.drive, .ev] s (raiseSole f p n t) := h.frame.trans ((touches_ev t _).mono (by decide))
  generalize raiseSole f p n t = r at hrecord hframe ⊢
  have hmap : r.map = s.map := hframe .map (by decide)
  have hwatch : r.watch = s.watch := hframe .watch (by decide)
  have hview : ∀ c, r.view c = s.view c := fun c => hframe (.view c) (by simp)
  have hmoves := enterDriveFault_moves r
  obtain ⟨uwatch, hkept⟩ := enterDriveFault_keeps r
  obtain ⟨-, hqueue, hdown⟩ := enterDriveFault_down r
  rw [hwatch] at uwatch
  rw [hmap] at hkept
  obtain ⟨umap, ulabel, uactive⟩ := hkept
  simp only [Down, hview] at hdown
  exact ⟨uwatch, hqueue, umap, ulabel, uactive, hdown, (hframe.mono (by decide)).trans (hmoves.frame.mono (by decide)),
    fun hopen => (hrecord hopen).keep hmoves.events⟩

/-! ## Failed steps, and contradictory answers -/

theorem exec_clearingTimeLimit {s : State} (hs : s.pos.st = .clearing) (ht : s.pos.ticks = some 50) :
    exec .clearingTimeLimit s = .next (stepFailed false .timeLimit s) := by
  simp [exec, execClearingTimeLimit, limitReached, hs, ht]

theorem exec_recalibrationTimeLimit {s : State} (hs : s.pos.st = .recalibrating) (ht : s.pos.ticks = some 600) :
    exec .recalibrationTimeLimit s = .next (stepFailed true .timeLimit s) := by
  simp [exec, execRecalibrationTimeLimit, limitReached, hs, ht]

theorem seekErrorJudged_recalibrating {w : Carried} {s : State} (hs : s.pos.st = .recalibrating)
    (ht : s.pos.ticks.isSome = true) (hc : s.drive.onCylinder = false) :
    seekErrorJudged w s = stepFailed true .seekError s := by
  simp [seekErrorJudged, acknowledged, hs, ht, hc]

theorem faultJudged_recalibrating {w : Carried} {s : State} (hs : s.pos.st = .recalibrating)
    (ht : s.pos.ticks.isSome = true) : faultJudged w s = stepFailed true .fault s := by
  simp [faultJudged, acknowledged, hs, ht]

/-- The step of a contradictory answer in E11's detail: an attempt, a retry, a recalibration (R174). -/
def Positioner.answeredStep (p : Positioner) (step : Nat) : Prop :=
  (p.st = .recalibrating ∧ step = 2) ∨ (p.st = .seeking ∧ step = if p.retry then 1 else 0)

theorem onCylinderJudged_contradictory {n : Nat} {s : State} (hs : s.pos.answeredStep n) (ht : s.pos.ticks.isSome = true)
    (he : s.drive.seekError = true) : onCylinderJudged s = contradictory n s := by
  rcases hs with ⟨hs, rfl⟩ | ⟨hs, rfl⟩ <;> simp [onCylinderJudged, acknowledged, attemptStep, hs, ht, he]

theorem seekErrorJudged_contradictory {n : Nat} {w : Carried} {s : State} (hs : s.pos.answeredStep n)
    (ht : s.pos.ticks.isSome = true) (hc : s.drive.onCylinder = true) : seekErrorJudged w s = contradictory n s := by
  rcases hs with ⟨hs, rfl⟩ | ⟨hs, rfl⟩ <;> simp [seekErrorJudged, acknowledged, attemptStep, hs, ht, hc]

/-- A command gives the drive up with an event of this detail. -/
def GivesUp (i : Instr) (f : SoleEvent) (n : Nat) (s : State) : Prop :=
  ∃ t p, exec i s = .next (enterDriveFault (raiseSole f p n t)) ∧ Edge [.driveFaultLine] s t

/-- A failed step gives the drive up with E12, the stage it stood in kept by the edge (R94 to R96). -/
theorem stepFailed_givesUp {i : Instr} {b : Bool} {k : StepCause} {s t : State} {n : Nat}
    (h : exec i s = .next (stepFailed b k t)) (he : Edge [.driveFaultLine] s t) (hn : detailE12 s.pos.stage b k = n) :
    GivesUp i .recalibrationFailed n s := by
  rw [← hn, ← he.pos]
  exact ⟨t, _, h, he⟩

/-- A contradictory answer gives the drive up with E11 (R93, R95). -/
theorem contradictory_givesUp {i : Instr} {n : Nat} {s t : State} (h : exec i s = .next (contradictory n t))
    (he : Edge [.driveFaultLine] s t) : GivesUp i .positionerFault n s := ⟨t, _, h, he⟩

/-- Settles O43: each failed step and each contradictory answer gives the drive up. -/
theorem failedStepGivesDriveUp : Obligations.FailedStepGivesDriveUp := by
  intro w s i f detail h
  have hgives : GivesUp i f detail s ∧ f ∈ [SoleEvent.recalibrationFailed, .positionerFault] := by
    have hsame : Edge [.driveFaultLine] s s := ⟨.refl _ s, .refl _ s⟩
    have hfault := faultHigh_edge s
    rcases h with ⟨rfl, hs, ht, rfl, rfl⟩ | ⟨rfl, hs, ht, rfl, rfl⟩ | ⟨rfl, hs, ht, hc, rfl, rfl⟩
      | ⟨rfl, hs, ht, rfl, rfl⟩ | ⟨hi, ht, rfl, hstep⟩
    · exact ⟨stepFailed_givesUp (exec_clearingTimeLimit hs ht) hsame (by simp [detailE12, StepCause.code]), by decide⟩
    · exact ⟨stepFailed_givesUp (exec_recalibrationTimeLimit hs ht) hsame (by simp [detailE12, StepCause.code]), by decide⟩
    · refine ⟨stepFailed_givesUp (b := true) (k := .seekError) ?_ (seekErrorHigh_edge _ s)
        (by simp [detailE12, StepCause.code]), by decide⟩
      rw [exec_seekErrorRise, seekErrorJudged_recalibrating (s := seekErrorHigh s) hs ht hc]
    · refine ⟨stepFailed_givesUp (b := true) (k := .fault) ?_ hfault (by simp [detailE12, StepCause.code]), by decide⟩
      rw [exec_driveFaultLine, faultJudged_recalibrating (by rw [hfault.pos, hs]) (by rw [hfault.pos, ht])]
    · rcases hi with ⟨rfl, he⟩ | ⟨rfl, hc⟩
      · refine ⟨contradictory_givesUp ?_ (onCylinderHigh_edge _ s), by decide⟩
        rw [exec_onCylinderRise, onCylinderJudged_contradictory (s := onCylinderHigh s) hstep ht he]
      · refine ⟨contradictory_givesUp ?_ (seekErrorHigh_edge _ s), by decide⟩
        rw [exec_seekErrorRise, seekErrorJudged_contradictory (s := seekErrorHigh s) hstep ht hc]
  obtain ⟨⟨t, p, hexec, hedge⟩, hf⟩ := hgives
  have hline : f ∉ [SoleEvent.driveFaultLine] := by
    rintro hm
    obtain rfl := List.mem_singleton.1 hm
    simp at hf
  exact ⟨_, hexec, driveGivenUp hedge hline p detail⟩

end Sys2Proof.Machine
end

section
/-! The position put in doubt in RUNNING (R60, R75, R82, R97, R98, R113 to R115, R168): the gate cut, the owner's grant ended,
an internal write cut with its commit. -/

namespace Sys2Proof.Machine

/-! ## A passed gate cut -/

theorem cutAtFault_some {g : GateRecord} {s : State} (h : s.relay.gate = some g) (w : Carried) :
    cutAtFault w s =
      if ((endGate .driveFault w s).view g.chan).st = .transferring then
        setViewState g.chan .positioned (endGate .driveFault w s)
      else endGate .driveFault w s := by
  simp only [cutAtFault, activeChan, h, Option.map_some]

theorem cutAtFault_none {s : State} (h : s.relay.gate = none) (w : Carried) : cutAtFault w s = s := by
  simp [cutAtFault, activeChan, h]

/-- A transfer with no gate of its own up is not cut (R60). -/
theorem cutInternal_idle {s : State} (h : s.map.xfer = .none ∨ s.map.xfer.begun) (k : TearCause) (w : Carried) :
    cutInternal k w s = s := by
  rcases h with h | ⟨v, h | h⟩ <;> simp only [cutInternal, h]

theorem commitFails_inFlight {imgs : CommitImages} {s : State} (h : s.map.commit = some imgs) (n : Nat) (p : PartAddr) :
    commitFails n p s = raiseSole .mapCommitFailed p n { s with map := { s.map with commit := none } } :=
  if_pos (by rw [h]; rfl)

theorem commitFails_guards (n : Nat) (p : PartAddr) (s : State) : Guards s (commitFails n p s) := by
  unfold commitFails
  split
  · exact ⟨rfl, rfl, rfl, rfl, fun _ => rfl, raiseSole_raises _ _ p n { s with map := { s.map with commit := none } }⟩
  · exact .refl s

theorem runningCommitFails_guards (b : Bool) (w : Carried) (s : State) : Guards s (runningCommitFails b w s) := by
  have hdrawn : Guards s { s with free := s.free + 1 } := .of_same rfl
  unfold runningCommitFails
  simp only
  split
  · split
    · exact commitFails_guards _ _ s
    · split
      · exact commitFails_guards _ _ s
      · exact hdrawn.trans (commitFails_guards _ _ _)
  · exact hdrawn.trans (commitFails_guards _ _ _)
  · exact hdrawn.trans (commitFails_guards _ _ _)
  · exact hdrawn.trans (commitFails_guards _ _ _)
  all_goals exact commitFails_guards _ _ s

theorem commitAtFault_guards (w : Carried) (s : State) : Guards s (commitAtFault w s) := by
  unfold commitAtFault
  split
  · exact runningCommitFails_guards _ w s
  · exact .refl s

theorem beginRecovery_decides (s : State) : Decides s (beginRecovery s) :=
  (decides_pos s _).trans (startClearing_decides _ _)

theorem beginRecovery_touches (s : State) : TouchesOnly [.pos, .drive] s (beginRecovery s) :=
  (requestOrder_step .faultClear _ s).2.2

theorem endAtFault_decides (s : State) : Decides s (endAtFault s) := by
  unfold endAtFault
  split
  · exact grantEnd_decides _ _ s
  · exact internalEnds_decides s
  · unfold claimAtFault
    split
    · exact decides_with s _ _ s.map.xfer s.drive.offered s.drive.strobeTicks s.drive.waiting s.relay.headPending
        s.ilock.deferred s.free
    · exact claimEnd_decides _ _ s
  · exact .refl s
  · exact .refl s

theorem endAtFault_calm (s : State) : Calm s (endAtFault s) := by
  unfold endAtFault
  split
  · exact grantEnd_calm _ _ s
  · rw [internalEnds_eq]
    exact (decideGrant_calm _).after rfl
  · unfold claimAtFault
    split
    · exact .of_same rfl
    · exact claimEnd_calm _ _ s
  · exact .refl s
  · exact .refl s

/-- Steps 2 and 3 of R97 spare what a cut has left. -/
theorem recovery_guards (s : State) : Guards s (endAtFault (beginRecovery s)) :=
  ((beginRecovery_decides s).guards (.of_ev _ (beginRecovery_touches s .ev (by decide)))).trans
    ((endAtFault_decides _).guards (endAtFault_calm _).raises)

/-- A passed gate up at a drive FAULT while running is judged, and down at the drive port (R97 step 1, R109). -/
theorem faultWhileRunning_judged {g : GateRecord} {w : Carried} {s : State} (h : s.relay.gate = some g)
    (hx : s.map.xfer = .none) :
    let u := faultWhileRunning w s
    GateJudged .driveFault g w s u ∧ u.drive.readGate = false ∧ u.drive.writeGate = false := by
  have hended := endGate_ended h .driveFault w
  have hcut : Guards (endGate .driveFault w s) (cutAtFault w s) := by
    rw [cutAtFault_some h]
    split
    · exact guards_view rfl
    · exact .refl _
  have hmap : (cutAtFault w s).map = (endGate .driveFault w s).map := by
    rw [cutAtFault_some h]
    split <;> rfl
  have hidle : cutInternal .driveFault w (cutAtFault w s) = cutAtFault w s := by
    refine cutInternal_idle ?_ _ w
    have hbegins := (endGate_begins .driveFault w s).xfer
    rw [hx] at hbegins
    rw [hmap]
    exact hbegins
  have hguards : Guards (endGate .driveFault w s) (faultWhileRunning w s) := by
    rw [faultWhileRunning_eq, hidle]
    exact hcut.trans ((commitAtFault_guards w _).trans (recovery_guards _))
  exact ⟨hended.judged.keep hguards, hguards.read.trans hended.readLow, hguards.write.trans hended.writeLow⟩

/-- The owner's view, back in POSITIONED by the cut, ends its grant, charged (R75, R97). -/
theorem faultWhileRunning_gateOwner {g : GateRecord} {w : Carried} {s : State} (h : s.relay.gate = some g)
    (hx : s.map.xfer = .none) (ho : s.arb.st = .owned g.chan) (hv : (s.view g.chan).st = .transferring)
    (hf : ¬FullShared g w) :
    let u := faultWhileRunning w s
    (u.view g.chan).st = .standby ∧ (u.view g.chan).target = (s.view g.chan).target
      ∧ u.arb.usage = chargedUsage s.arb.usage g.chan s.arb.held := by
  let e := endGate .driveFault w s
  let c := setViewState g.chan .positioned e
  have hmarks := endGate_marks h hf .driveFault
  have hdropped := dropped_touches g w s
  have harb : e.arb = s.arb := Eq.trans (hmarks.frame .arb (by decide)) (hdropped .arb (by simp))
  have hmap : e.map = s.map := Eq.trans (hmarks.frame .map (by decide)) (hdropped .map (by simp))
  have hview : e.view g.chan = { s.view g.chan with causes := (e.view g.chan).causes } := by
    rw [← show (dropped g w s).view g.chan = s.view g.chan from hdropped (.view g.chan) (by simp)]
    exact hmarks.view g.chan
  have hcut : cutAtFault w s = c := by
    rw [cutAtFault_some h]
    exact if_pos (by rw [hview]; exact hv)
  have hgate : c.relay.gate = none := (endGate_ended h .driveFault w).judged.1
  have hxfer : c.map.xfer = .none := by rw [show c.map = e.map from rfl, hmap, hx]
  have hown : c.arb.st = .owned g.chan := by rw [show c.arb = e.arb from rfl, harb, ho]
  have hpositioned : c.view g.chan = { e.view g.chan with st := .positioned } := by simp [c]
  have hcommit : commitAtFault w c = c := if_neg fun hi => by simp [hown] at hi
  -- nothing is left to cut, so the rest is a drive FAULT with no gate up
  have hu : faultWhileRunning w s = faultWhileRunning w c := by
    rw [faultWhileRunning_no_gate hgate hxfer (by simp [hown]), faultWhileRunning_eq, hcut,
      cutInternal_idle (.inl hxfer), hcommit]
  obtain ⟨hst, htarget, husage⟩ := faultWhileRunning_owner (w := w) hgate hxfer hown (by rw [hpositioned])
  simp only [hu]
  refine ⟨hst, htarget.trans (by rw [hpositioned, hview]), husage.trans ?_⟩
  rw [show c.arb = e.arb from rfl, harb]

/-! ## An internal write cut -/

theorem addTorn_onlyRaises (e : TornEntry) (s : State) : OnlyRaises [.sole .tornListOverflow] s (addTorn e s) := by
  unfold addTorn
  simp only
  split
  · split
    · exact raiseSole_onlyRaises _ _ _ s
    · exact .refl _ s
  · exact .refl _ s

/-- A write of the Map Store cut before it is full: torn with writer INTERNAL, its gate down, and on WRITE DATA the words that
have gone out (R113, R114). -/
theorem cutInternal_writing {v : Vol} {imgs : CommitImages} {w : Carried} {s : State} (hx : s.map.xfer = .writing v)
    (hc : s.map.commit = some imgs) (hw : reachedCheckWord w = false) (k : TearCause) :
    let u := cutInternal k w s
    ⟨mapSector v, .internal, k, s.uptime⟩ ∈ u.relay.torn ∧ u.drive.writeGate = false
      ∧ u.drive.writeData = (imgs.imageFor v).toList.take (wordsPassed w)
      ∧ TouchesOnly [.drive, .relay, .ev] s u ∧ OnlyRaises [.sole .tornListOverflow] s u := by
  let sent : State :=
    { s with drive := { s.drive with writeData := (imgs.imageFor v).toList.take (wordsPassed w) } }
  let e : TornEntry := ⟨mapSector v, .internal, k, s.uptime⟩
  have hshow : showInternalWrite v w s = sent := by simp only [showInternalWrite, hc, sent]
  have hu : cutInternal k w s = addTorn e (dropDriveGates sent) := by
    simp only [cutInternal, hx, hw, hshow, Bool.false_eq_true, if_false, e]
  have hdrive : (cutInternal k w s).drive = (dropDriveGates sent).drive := by
    rw [hu]
    exact addTorn_touches e _ .drive (by decide)
  have hev : (dropDriveGates sent).ev = s.ev := dropDriveGates_touches sent .ev (by decide)
  refine ⟨?torn, ?gate, ?data, cutInternal_touches k w s, ?raises⟩
  case torn =>
    rw [hu, addTorn_torn]
    simp [e]
  case gate =>
    rw [hdrive]
    exact (dropDriveGates_low sent).2
  case data =>
    rw [hdrive, dropDriveGates, (offerNext_decides _).drive]
  case raises =>
    have hraises := addTorn_onlyRaises e (dropDriveGates sent)
    rw [hu]
    simpa only [OnlyRaises, hev] using hraises

/-- The commit whose write is cut before it is full fails with E20, number 4 (R60, R168). -/
theorem commitAtFault_writing {v : Vol} {imgs : CommitImages} {w : Carried} {s : State} (hx : s.map.xfer = .writing v)
    (hc : s.map.commit = some imgs) (hw : reachedCheckWord w = false) (hi : s.arb.st = .internal)
    (hq : s.arb.queue = [.mapWrite]) :
    let u := commitAtFault w s
    u.map = { s.map with commit := none } ∧ TouchesOnly [.map, .ev] s u
      ∧ (Open (.sole .mapCommitFailed) s → Recorded (.sole .mapCommitFailed) 4 u) := by
  let cleared : State := { s with map := { s.map with commit := none } }
  have hrunning : commitAtFault w s = runningCommitFails false w s := if_pos ⟨hi, by rw [hq]; rfl⟩
  have hshort : runningCommitFails false w s = commitFails 4 (mapSector v).whole s := by
    simp only [runningCommitFails, hx, hw, Bool.not_false, if_true]
  have hu : commitAtFault w s = raiseSole .mapCommitFailed (mapSector v).whole 4 cleared :=
    (hrunning.trans hshort).trans (commitFails_inFlight hc 4 _)
  simp only [hu]
  exact ⟨rfl, ((touches_map s _).mono (by decide)).trans ((touches_ev _ _).mono (by decide)),
    fun hopen => recorded_raise _ _ _ 4 cleared hopen⟩

/-- The recovery ends the transfer in hand; with nothing else queued no other begins (R82, R97). -/
theorem recovery_endsTransfer {s : State} (hi : s.arb.st = .internal) {k : InternalKind} (hq : s.arb.queue = [k]) :
    let u := endAtFault (beginRecovery s)
    u.map = { s.map with xfer := .none } ∧ u.arb.queue = [] ∧ u.relay.torn = s.relay.torn
      ∧ u.drive.writeGate = s.drive.writeGate ∧ u.drive.writeData = s.drive.writeData := by
  let b := beginRecovery s
  have hbegun := beginRecovery_touches s
  have harb : b.arb = s.arb := hbegun .arb (by decide)
  have hmap : b.map = s.map := hbegun .map (by decide)
  have hdecides : Decides s (endAtFault b) := (beginRecovery_decides s).trans (endAtFault_decides b)
  have hu : endAtFault b = decideGrant (transferEnded b) := by
    simp only [endAtFault, harb, hi, internalEnds_eq]
  have hqueue : (transferEnded b).arb.queue = [] := by
    show b.arb.queue.tail = []
    rw [harb, hq]
    rfl
  obtain ⟨hkept, hempty, -⟩ := decideGrant_noTransfer (s := transferEnded b) hqueue rfl
  refine ⟨?_, ?_, hdecides.torn, by rw [hdecides.drive], by rw [hdecides.drive]⟩
  · rw [show endAtFault (beginRecovery s) = _ from hu, hkept, ← hmap]
    rfl
  · rw [show endAtFault (beginRecovery s) = _ from hu]
    exact hempty

/-- An internal write up at a drive FAULT while running: cut and torn, and its commit failed (R60, R82, R97, R113, R168). -/
theorem faultWhileRunning_write {v : Vol} {imgs : CommitImages} {w : Carried} {s : State} (hx : s.map.xfer = .writing v)
    (hc : s.map.commit = some imgs) (hi : s.arb.st = .internal) (hq : s.arb.queue = [.mapWrite])
    (hg : s.relay.gate = none) (hw : reachedCheckWord w = false) :
    let u := faultWhileRunning w s
    ⟨mapSector v, .internal, .driveFault, s.uptime⟩ ∈ u.relay.torn ∧ u.drive.writeGate = false
      ∧ u.drive.writeData = (imgs.imageFor v).toList.take (wordsPassed w)
      ∧ u.map = { s.map with commit := none, xfer := u.map.xfer } ∧ u.arb.queue = []
      ∧ (Open (.sole .mapCommitFailed) s → Recorded (.sole .mapCommitFailed) 4 u) := by
  let x := cutInternal .driveFault w s
  let m := commitAtFault w x
  have hu : faultWhileRunning w s = endAtFault (beginRecovery m) := by rw [faultWhileRunning_eq, cutAtFault_none hg]
  obtain ⟨htorn, hgate, hdata, htouch, hraises⟩ := cutInternal_writing hx hc hw .driveFault
  have xmap : x.map = s.map := htouch .map (by decide)
  have xarb : x.arb = s.arb := htouch .arb (by decide)
  obtain ⟨mmap, mtouch, mrecord⟩ := commitAtFault_writing (s := x) (by rw [xmap, hx]) (by rw [xmap, hc]) hw
    (by rw [xarb, hi]) (by rw [xarb, hq])
  have marb : m.arb = s.arb := Eq.trans (mtouch .arb (by decide)) xarb
  have mrelay : m.relay = x.relay := mtouch .relay (by decide)
  have mdrive : m.drive = x.drive := mtouch .drive (by decide)
  obtain ⟨umap, uqueue, utorn, ugate, udata⟩ := recovery_endsTransfer (s := m) (by rw [marb, hi]) (by rw [marb, hq])
  have hevents : Occurs m.ev (endAtFault (beginRecovery m)).ev :=
    ((beginRecovery_decides m).trans (endAtFault_decides _)).events
  simp only [hu]
  refine ⟨?_, ?_, ?_, ?_, uqueue, fun hopen => (mrecord (hraises.spares_open (by decide) hopen)).keep hevents⟩
  · rw [utorn, mrelay]
    exact htorn
  · rw [ugate, mdrive, hgate]
  · rw [udata, mdrive, hdata]
  · rw [umap, mmap, xmap]

/-! ## What puts the position in doubt -/

/-- The part with ON CYLINDER low at the drive port (R15). -/
def onCylinderLow (s : State) : State := { s with drive := { s.drive with onCylinder := false } }

theorem exec_onCylinderFall {s : State} (hs : s.pos.st = .idle) (w : Carried) :
    exec (.onCylinderFall w) s = .next (positionLost w (onCylinderLow s)) := by
  simp only [exec, execOnCylinderFall, hs, if_true]
  rfl

theorem seekErrorJudged_idle {s : State} (hs : s.pos.st = .idle) (w : Carried) :
    seekErrorJudged w s = positionLost w s := by
  simp only [seekErrorJudged, hs]

theorem faultJudged_running {s : State} (hs : s.pos.st = .idle) (hw : s.watch.st = .running) (w : Carried) :
    faultJudged w s = faultWhileRunning w s := by
  simp only [faultJudged, hs, hw, if_true]

theorem orderOutstanding_iff (s : State) :
    orderOutstanding s = true ↔ s.drive.offered ≠ none ∨ s.drive.waiting ≠ [] := by
  simp [orderOutstanding, Option.isSome_iff_ne_none]

theorem positionLost_outstanding {s : State} (h : s.drive.offered ≠ none ∨ s.drive.waiting ≠ []) (w : Carried) :
    positionLost w s = s := if_pos ((orderOutstanding_iff s).2 h)

/-- A change of position with no order outstanding in RUNNING: E10, and the drive FAULT's steps (R98). -/
theorem positionLost_unbidden {s : State} (ho : s.drive.offered = none) (hn : s.drive.waiting = [])
    (hw : s.watch.st = .running) (w : Carried) :
    ∃ p, positionLost w s = faultWhileRunning w (raiseSole .seekError p 2 s) := by
  have hnone : ¬orderOutstanding s = true := by simp [orderOutstanding_iff, ho, hn]
  rw [positionLost, if_neg hnone, if_pos hw]
  exact ⟨_, rfl⟩

/-- What puts the position in doubt raises its event, and then the steps of R97 follow (R97, R98). -/
theorem exec_inDoubt {w : Carried} {s : State} {i : Instr} (hw : s.watch.st = .running) (hs : s.pos.st = .idle)
    (h : i = .driveFaultLine w
      ∨ ((i = .onCylinderFall w ∨ i = .seekErrorRise w) ∧ s.drive.offered = none ∧ s.drive.waiting = [])) :
    ∃ t, exec i s = .next (faultWhileRunning w t) ∧ Edge [.driveFaultLine, .seekError] s t
      ∧ (i = .driveFaultLine w → Open (.sole .driveFaultLine) s → Recorded (.sole .driveFaultLine) 0 t)
      ∧ (i ≠ .driveFaultLine w → Open (.sole .seekError) s → Recorded (.sole .seekError) 2 t) := by
  have hraise : ∀ p t, Edge [] s t → Edge [.driveFaultLine, .seekError] s (raiseSole .seekError p 2 t) :=
    fun p t h => (h.mono (by simp)).trans ((edge_raiseSole _ p 2 t).mono (by decide))
  have hrecord : ∀ p t, Edge [] s t → Open (.sole .seekError) s →
      Recorded (.sole .seekError) 2 (raiseSole .seekError p 2 t) :=
    fun p t h hopen => recorded_raise _ _ p 2 t (h.spares_open (by simp) hopen)
  rcases h with rfl | ⟨rfl | rfl, ho, hn⟩
  · have hedge := faultHigh_edge s
    have hwatch : (faultHigh s).watch = s.watch := hedge.frame .watch (by decide)
    refine ⟨faultHigh s, ?_, hedge.mono (by decide), fun _ hopen => ?_, fun hne => absurd rfl hne⟩
    · rw [exec_driveFaultLine, faultJudged_running (by rw [hedge.pos, hs]) (by rw [hwatch, hw])]
    · have hline := faultHigh_records hw hopen
      rw [hs] at hline
      exact hline
  · obtain ⟨p, hp⟩ := positionLost_unbidden (s := onCylinderLow s) ho hn hw w
    have hedge : Edge [] s (onCylinderLow s) := edge_drive [] s _
    exact ⟨_, by rw [exec_onCylinderFall hs, hp], hraise p _ hedge, nofun, fun _ => hrecord p _ hedge⟩
  · obtain ⟨p, hp⟩ := positionLost_unbidden (s := seekErrorHigh s) ho hn hw w
    have hedge := seekErrorHigh_edge [] s
    exact ⟨_, by rw [exec_seekErrorRise, seekErrorJudged_idle (s := seekErrorHigh s) hs, hp], hraise p _ hedge, nofun,
      fun _ => hrecord p _ hedge⟩

/-- Settles O44: the edge and its event, then the steps of R97 by what is up at the drive port. -/
theorem driveFaultWhileRunning : Obligations.DriveFaultWhileRunning := by
  intro w s i hw hs
  refine ⟨fun h => ?doubt, fun ho => ⟨?fall, ?rise⟩⟩
  case fall => rw [exec_onCylinderFall hs, positionLost_outstanding (s := onCylinderLow s) ho]; rfl
  case rise =>
    rw [exec_seekErrorRise, seekErrorJudged_idle (s := seekErrorHigh s) hs,
      positionLost_outstanding (s := seekErrorHigh s) ho]
    rfl
  case doubt =>
    obtain ⟨t, hexec, hedge, hline, herror⟩ := exec_inDoubt hw hs h
    have hmoves := faultWhileRunning_moves w t
    have harb : t.arb = s.arb := hedge.frame .arb (by decide)
    have hmap : t.map = s.map := hedge.frame .map (by decide)
    have hrelay : t.relay = s.relay := hedge.frame .relay (by decide)
    have hwatch : t.watch = s.watch := hedge.frame .watch (by decide)
    have huptime : t.uptime = s.uptime := hedge.frame .uptime (by decide)
    have hchan : Raises [] s t := ⟨hedge.raises.1, fun d e _ => hedge.raises.spares (by simp)⟩
    obtain ⟨hst, hstage, hcyl, -, -, -, hasked⟩ := faultWhileRunning_pos w t
    refine ⟨_, hexec, hst, hstage, hcyl, hasked, ?watch, (hedge.frame.mono (by decide)).trans (hmoves.frame.mono (by decide)),
      fun x ho hg hx hv _ => ?owner, fun g hg hx => ?gate, fun v imgs hx hc hi hq hg hn => ?write,
      fun hi hopen => (hline hi hopen).keep hmoves.events, fun hi hopen => (herror hi hopen).keep hmoves.events⟩
    case watch =>
      rw [show (faultWhileRunning w t).watch = t.watch from hmoves.frame .watch (by decide), hwatch, hw]
    case owner =>
      rw [← harb, ← hedge.view x]
      exact faultWhileRunning_owner (by rw [hrelay, hg]) (by rw [hmap, hx]) (by rw [harb, ho]) (by rw [hedge.view, hv])
    case gate =>
      have hgate : t.relay.gate = some g := by rw [hrelay, hg]
      have hxfer : t.map.xfer = .none := by rw [hmap, hx]
      obtain ⟨hjudged, hread, hwrite⟩ := faultWhileRunning_judged (w := w) hgate hxfer
      refine ⟨hjudged.before (by rw [hrelay]) huptime hmap (fun d => by rw [hedge.view]) hchan, hread, hwrite,
        fun ho hv _ hf => ?_⟩
      rw [← harb, ← hedge.view g.chan]
      exact faultWhileRunning_gateOwner hgate hxfer (by rw [harb, ho]) (by rw [hedge.view, hv]) hf
    case write =>
      obtain ⟨htorn, hgate, hdata, umap, hqueue, hfailed⟩ := faultWhileRunning_write (v := v) (imgs := imgs) (w := w) (s := t)
        (by rw [hmap, hx]) (by rw [hmap, hc]) (by rw [harb, hi]) (by rw [harb, hq]) (by rw [hrelay, hg]) hn
      rw [huptime] at htorn
      rw [hmap] at umap
      have himage : imgs.imageFor v = if v = .f then imgs.map else imgs.label.getD .zero := by cases v <;> rfl
      refine ⟨htorn, hgate, ?_, umap, hqueue, fun hopen => hfailed (hedge.spares_open (by decide) hopen)⟩
      rw [hdata, himage]

end Sys2Proof.Machine
end

section
/-! A passed gate that drops with its view back in POSITIONED (R33, R109), and a gate that was not passed (R31, R44): the
statements about a read that reports nothing and about the words relayed (R12, R106, R108). -/

namespace Sys2Proof.Machine

/-! ## The gate at a port ends -/

/-- A port whose gate has ended: the line that began it is low (R31). -/
def Port.ended (p : Port) : Port :=
  match p.gate with
  | some line => { p.setLine line false with gate := none }
  | none => p

theorem Port.ended_of_gate {p : Port} {line : GateLine} (h : p.gate = some line) :
    p.ended = { p.setLine line false with gate := none } := by simp only [Port.ended, h]

theorem Port.ended_of_none {p : Port} (h : p.gate = none) : p.ended = p := by simp only [Port.ended, h]

theorem endPortGate_eq (c : Chan) (s : State) : endPortGate c s = setPort c (s.port c).ended s := by
  unfold endPortGate
  split
  · rename_i line h
    rw [Port.ended_of_gate h]
  · rename_i h
    rw [Port.ended_of_none h, setPort_port_get]

theorem endPortGate_touches (c : Chan) (s : State) : TouchesOnly [.port c] s (endPortGate c s) := by
  rw [endPortGate_eq]
  exact touches_port c _ s

/-! ## The view back in POSITIONED -/

/-- The part with a view back in POSITIONED, its idle count 0 (R33, R44). -/
def repositioned (c : Chan) (s : State) : State := setView c { s.view c with st := .positioned, idle := 0 } s

theorem repositioned_touches (c : Chan) (s : State) : TouchesOnly [.view c] s (repositioned c s) := touches_view c _ s

@[simp] theorem repositioned_view (c : Chan) (s : State) :
    (repositioned c s).view c = { s.view c with st := .positioned, idle := 0 } := setView_view_self c _ s

/-- The owner's grant has its end marked (R79). -/
abbrev EndMarked (s : State) (c : Chan) : Prop := s.arb.st = .owned c ∧ s.arb.releasePending = true

/-- A gate that ends for a TRANSFERRING view whose grant goes on (R33, R109 step 5). -/
theorem endGatePositioned_plain {g : GateRecord} {s : State} {k : TearCause} {w : Carried} (hg : s.relay.gate = some g)
    (hv : ((endGate k w s).view g.chan).st = .transferring) (hm : ¬EndMarked (endGate k w s) g.chan) :
    endGatePositioned k w s = repositioned g.chan (endGate k w s) := by
  have hidle : idleToZero g.chan (endGate k w s) =
      setView g.chan { (endGate k w s).view g.chan with idle := 0 } (endGate k w s) := if_neg (by rw [hv]; decide)
  have hstays : ¬((endGate k w s).arb.st = .owned g.chan && (endGate k w s).arb.releasePending) = true := by
    simpa using hm
  have hactive : activeChan s = some g.chan := by simp [activeChan, hg]
  simp only [endGatePositioned, hactive, hidle, backToPositioned, setView_view_self, hv, if_true, setViewState,
    setView_same, hstays, setView_setView]
  rfl

/-- A gate that ends while no supply hold waits for it and the grant goes on (R33, R109, R111). -/
theorem gateEnd_plain {c : Chan} {g : GateRecord} {s : State} {k : TearCause} {w : Carried} (hp : PlainGate s c g)
    (hv : ((endGate k w s).view c).st = .transferring) (hm : ¬EndMarked (endGate k w s) c) :
    reportGateEnd (endGatePositioned k w s) = repositioned c (endGate k w s) := by
  obtain ⟨hg, rfl, -, -, hhold⟩ := hp
  have hwatch : (repositioned g.chan (endGate k w s)).watch = s.watch :=
    (endGate_moves k w s).frame .watch (by decide)
  rw [endGatePositioned_plain hg hv hm, reportGateEnd_not_hold (by rw [hwatch]; exact hhold)]

/-- A gate whose end goes unreported to the Interlock Unit leaves the arbiter and the states of the views (R109). -/
theorem endGate_unreported {g : GateRecord} {w : Carried} {s : State} (hg : s.relay.gate = some g) (hf : ¬FullShared g w)
    (k : TearCause) : (endGate k w s).arb = s.arb ∧ ∀ d, ((endGate k w s).view d).st = (s.view d).st := by
  have hmarks := endGate_marks hg hf k
  have hdropped := dropped_touches g w s
  refine ⟨Eq.trans (hmarks.frame .arb (by decide)) (hdropped .arb (by simp)), fun d => ?_⟩
  rw [hmarks.view d, show (dropped g w s).view d = s.view d from hdropped (.view d) (by simp)]

theorem gateEnd_unreported {c : Chan} {g : GateRecord} {s : State} {w : Carried} (hp : PlainGate s c g)
    (hf : ¬FullShared g w) (k : TearCause) :
    reportGateEnd (endGatePositioned k w s) = repositioned c (endGate k w s) := by
  obtain ⟨harb, hst⟩ := endGate_unreported hp.1 hf k
  obtain ⟨-, -, hv, hm, -⟩ := id hp
  exact gateEnd_plain hp (by rw [hst]; exact hv) (by rw [EndMarked, harb]; exact hm)

/-- The drop of an active gate is its end with the gate at the port ended (R33, R109). -/
theorem exec_gateDrop {c : Chan} {g : GateRecord} {s : State} (hp : PlainGate s c g) (w : Carried) :
    exec (.gateDrop c w) s = .next (reportGateEnd (endGatePositioned .shortWrite w (endPortGate c s))) := by
  obtain ⟨hg, rfl, -, -, -⟩ := hp
  have hactive : activeChan s = some g.chan := by simp [activeChan, hg]
  simp only [exec, execGateDrop, dropGate, hactive, if_true]

theorem PlainGate.endPortGate {c : Chan} {g : GateRecord} {s : State} (hp : PlainGate s c g) :
    PlainGate (endPortGate c s) c g := by
  rw [endPortGate_eq]
  exact hp

/-! ## A read that reports nothing -/

/-- A read that the Mailbox Unit does not hear of ends with its drop at both ports (R109, R131). -/
theorem endGate_read {g : GateRecord} {w : Carried} {s : State} (hg : s.relay.gate = some g) (hr : g.kind = .read)
    (hn : g.cls ≠ .mailbox ∨ g.addr.head = .h1 ∨ reachedCheckWord w = false ∨ g.checkError = true) (k : TearCause) :
    endGate k w s = dropped g w s := by
  have hjudge : judgeGate (g.carry w) k (dropped g w s) = dropped g w s := if_pos hr
  have hinterlock : reportInterlock (g.carry w) (dropped g w s) = dropped g w s := if_neg fun h => h.1 hr
  have hmailbox : reportMailbox (g.carry w) (dropped g w s) = dropped g w s := by
    have hkind : (g.carry w).kind = .read := hr
    unfold reportMailbox
    simp only [hkind, if_true]
    split
    · rename_i hreports
      obtain ⟨hcls, hhead, hfull⟩ := hreports
      have herror : g.checkError = true := by
        rcases hn with h | h | h | h
        · exact absurd hcls h
        · exact nomatch h.symm.trans hhead
        · exact nomatch h.symm.trans hfull
        · exact h
      exact if_pos herror
    · rfl
  rw [endGate_eq hg, hjudge, hinterlock, hmailbox]

/-- With no order waiting a read's drop sets its record, the gates and READ DATA alone (R12, R106). -/
theorem dropped_read {g : GateRecord} {s : State} (hr : g.kind = .read) (hn : s.drive.waiting = []) (w : Carried) :
    dropped g w s =
      setPort g.chan
        { s.port g.chan with
          readData := readDataRelayed g ((((s.view g.chan).target).map (·.logical)).getD 0) w }
        { s with
          relay := { s.relay with gate := none },
          drive := { s.drive with readGate := false, writeGate := false } } := by
  have hkind : (g.carry w).kind = .read := hr
  rw [dropped, relayData, if_pos hkind, dropDriveGates, offerNext_empty (by exact hn)]
  rfl

/-! ## The words relayed -/

theorem replaceCylinder_take (n : Nat) (h : Word) (rest : List Word) :
    replaceCylinder n ((h :: rest).take 3) = BitVec.ofNat 16 n :: rest.take 2 := rfl

theorem readDataRelayed_window {g : GateRecord} {w : Carried} {h : Word} {rest : List Word} (hg : g.inWindow = true)
    (hw : w.header = h :: rest) (n : Nat) :
    readDataRelayed g n w = BitVec.ofNat 16 n :: (rest.take 2 ++ w.data.take 256) := by
  rw [readDataRelayed, if_pos hg, hw, replaceCylinder_take, List.cons_append]

theorem readDataRelayed_data {g : GateRecord} {w : Carried} (h : g.inWindow = false ∨ w.header = []) (n : Nat) :
    readDataRelayed g n w = w.data.take 256 := by
  rcases h with h | h
  · simp [readDataRelayed, h]
  · simp [readDataRelayed, h, replaceCylinder]

/-! ## A gate that was not passed -/

theorem dropGate_inactive {c : Chan} {line : GateLine} {s : State} (hg : s.relay.gate.map (·.chan) ≠ some c)
    (hp : (s.port c).gate = some line) (hv : (s.view c).st ≠ .detached) (w : Carried) :
    dropGate c w s =
      setPort c { (s.port c).setLine line false with gate := none } (setView c { s.view c with idle := 0 } s) := by
  have hup : (s.port c).gate.isSome = true := by rw [hp]; rfl
  have hidle : activeChan s ≠ some c := hg
  rw [dropGate, if_neg hidle, if_pos hup, endPortGate_eq, Port.ended_of_gate hp]
  simp only [idleToZero, setPort_view, hv, if_false, setView_setPort]

/-- Settles O23: the drop of a read, then the lines of a gate that is not active, then the words relayed. -/
theorem dropThatReportsNothing : Obligations.DropThatReportsNothing := by
  intro c line w s
  refine ⟨fun g hp hr hport hwait hn => ?read, fun hg hport hv => ?inactive, fun hport => ?other,
    fun g logical => ⟨fun h rest hg hw => readDataRelayed_window hg hw logical, fun hd => readDataRelayed_data hd logical⟩⟩
  case read =>
    have hended := endPortGate_eq c s
    rw [Port.ended_of_gate hport] at hended
    have hp' := hp.endPortGate
    rw [exec_gateDrop hp, gateEnd_unreported hp' (fun hf => hf.1 hr), endGate_read hp'.1 hr hn,
      dropped_read hr (by rw [hended]; exact hwait), hended]
    obtain ⟨-, rfl, -⟩ := hp
    congr 1
    cases g.chan <;> rfl
  case inactive => simp only [exec, execUnpassedGateDrop, hport, if_true, dropGate_inactive hg hport hv]
  case other => simp only [exec, execUnpassedGateDrop, hport, if_false]

end Sys2Proof.Machine
end

section
/-! A write that a check bars (R30, R107): the first check that holds, its event, and the view faulted. -/

namespace Sys2Proof.Machine

/-! ## The first check that holds -/

/-- The check that suppresses a write is the first of the five that holds (R107). -/
theorem writeCheck_some {s : State} {v : View} {t : Target} {us n : Nat}
    (h : if t.cls = .readOnly then n = 1
      else if s.drive.prot v.sel.vol = true then n = 2
      else if t.cls = .mailbox ∧ v.sel.head = .h1 then n = 3
      else if t.cls = .mailbox ∧ posted s s.watch.sector = true then n = 4
      else n = 5 ∧ us < 120 ∧ (t.cls = .readWrite ∨ t.cls = .shared) ∧ t.permit = false) :
    writeCheck s v t (classify .write (inHeaderWindow us)) = some n := by
  unfold writeCheck
  by_cases hcls : t.cls = .readOnly
  · rw [if_pos hcls] at h ⊢
    rw [h]
  rw [if_neg hcls] at h ⊢
  by_cases hprot : s.drive.prot v.sel.vol = true
  · rw [if_pos hprot] at h ⊢
    rw [h]
  rw [if_neg hprot] at h ⊢
  by_cases h1 : t.cls = .mailbox ∧ v.sel.head = .h1
  · rw [if_pos h1] at h ⊢
    rw [h]
  rw [if_neg h1] at h ⊢
  have hhead : t.cls = .mailbox → v.sel.head = .h0 := fun hm => by
    cases hh : v.sel.head with
    | h0 => rfl
    | h1 => exact absurd ⟨hm, hh⟩ h1
  by_cases h0 : t.cls = .mailbox ∧ posted s s.watch.sector = true
  · obtain ⟨hm, hposted⟩ := id h0
    rw [if_pos h0] at h
    rw [if_pos ⟨hm, hhead hm, hposted⟩, h]
  · rw [if_neg h0] at h
    obtain ⟨rfl, hus, hspace, hpermit⟩ := h
    have hkind : classify .write (inHeaderWindow us) = .formatWrite := by simp [classify_eq, hus]
    rw [if_neg fun hm => h0 ⟨hm.1, hm.2.2⟩, if_pos ⟨hkind, hspace, hpermit⟩]

/-- A write that is not held and that a check bars is suppressed (R107). -/
theorem handGate_suppresses {c : Chan} {us n : Nat} {s : State} {t : Target} (hheld : gateHeld s c = false)
    (ht : (s.view c).target = some t)
    (hcheck : writeCheck s (s.view c) t (classify .write (inHeaderWindow us)) = some n) :
    handGate c .write us s = suppressWrite c t (classify .write (inHeaderWindow us)) n s := by
  have hwrite : classify .write (inHeaderWindow us) ≠ .read := by
    rw [classify_eq]
    by_cases h : us < 120 <;> simp [h]
  simp [handGate, hheld, ht, hwrite, hcheck]

/-! ## The view faulted -/

/-- A view without a record that is faulted keeps its target and its selection (R30). -/
theorem enterFaulted_unrecorded {c : Chan} {s : State} (hst : (s.view c).st ≠ .faulted)
    (hr : s.arb.request.get c = none) (k : FaultCause) :
    let u := enterFaulted c k s
    (u.view c).st = .faulted ∧ (u.view c).fault = k ∧ (u.view c).target = (s.view c).target
      ∧ (u.view c).sel = (s.view c).sel ∧ Guards s u := by
  let v : View := { s.view c with st := .faulted, fault := k }
  have hu : enterFaulted c k s = removeChain c (leave c (s.view c).st (setView c v s)) := if_neg hst
  have hview := (leaveAndRemove_view (c := c) (old := (s.view c).st) (v := v) (s := s) (fun _ => hr) nofun).1
  rw [← hu] at hview
  simp only
  rw [hview]
  exact ⟨rfl, rfl, rfl, rfl, by rw [hu]; exact leaveAndRemove_guards _ rfl⟩

/-- The event of a suppressed write, and the cause of its fault, by the number of the check (R107). -/
theorem suppressWrite_eq (c : Chan) (t : Target) (k : GateKind) (n : Nat) (s : State) :
    suppressWrite c t k n s =
      enterFaulted c (if n = 5 then .formatRefused else .protectedWrite)
        (raiseFor c (if n = 5 then .formatRefused else .protectedWrite) (gateAddr s (s.view c) t).whole (detailE2 k n) s) := by
  by_cases h : n = 5 <;> simp only [suppressWrite, h, if_true, if_false]

theorem risen_touches (c : Chan) (line : GateLine) (s : State) : TouchesOnly [.port c, .view c] s (risen c line s) :=
  ((touches_view c _ s).mono (by simp)).trans ((touches_port c _ _).mono (by simp))

/-- Settles O21: the first check that holds, then the event and the fault of its number. -/
theorem writeSuppressed : Obligations.WriteSuppressed := by
  intro c us s t n hr hw hv ht hhold hpend hhead hrequest hcheck
  let r := risen c .write s
  let k := classify .write (inHeaderWindow us)
  let e : ChanEvent := if n = 5 then .formatRefused else .protectedWrite
  let x := raiseFor c e (gateAddr r (r.view c) t).whole (detailE2 k n) r
  let u := enterFaulted c (if n = 5 then .formatRefused else .protectedWrite) x
  have hview : r.view c = { s.view c with idle := 0 } := risen_view c .write s
  have hrise := risen_touches c .write s
  have hheld : gateHeld r c = false := by
    rw [Bool.eq_false_iff, ne_eq, show gateHeld r c = true ↔ _ from gateHeld_iff r c]
    rintro (h | h | h)
    · exact hhold h
    · rw [show r.relay = s.relay from rfl, hpend] at h
      exact nomatch h
    · exact hhead h
  have hnumber : writeCheck r (r.view c) t k = some n := by
    rw [hview]
    exact writeCheck_some (s := r) (v := { s.view c with idle := 0 }) hcheck
  have hexec : exec (.gateArrival c .write us) s = .next u := by
    rw [exec_gateArrival_risen hr hw (by simp [hv]), gateEffect_positioned (by simp [hv]),
      handGate_suppresses hheld (by rw [hview]; exact ht) hnumber, suppressWrite_eq]
  obtain ⟨hst, hfault, htarget, hsel, hguards⟩ :=
    enterFaulted_unrecorded (s := x) (c := c) (show (r.view c).st ≠ .faulted by rw [hview]; simp [hv]) hrequest
      (if n = 5 then .formatRefused else .protectedWrite)
  have hxview : x.view c = { s.view c with idle := 0 } := hview
  have hmoves := enterFaulted_moves c (if n = 5 then .formatRefused else .protectedWrite) x
  rw [hxview] at htarget hsel
  refine ⟨u, hexec, hst, hfault, htarget.trans ht, hsel, hguards.gate, hguards.torn, hguards.read, hguards.write, ?frame,
    ?record⟩
  case frame =>
    exact (hrise.mono (by cases c <;> decide)).trans
      (((touches_ev r _).mono (by cases c <;> decide)).trans (hmoves.frame.mono (by cases c <;> decide)))
  case record =>
    have hflag : (if n = 5 then Flag.chan c .formatRefused else Flag.chan c .protectedWrite) = .chan c e :=
      (apply_ite (Flag.chan c) _ _ _).symm
    have hdetail : detailE2 k n = (if us < 120 then 2 else 1) * 2 ^ 14 + n := by
      simp only [k, classify_eq, detailE2]
      by_cases hus : us < 120 <;> simp [hus, GateKind.code]
    simp only [hflag]
    rw [← hdetail]
    exact fun hopen => (recorded_raise (.chan c e) (some c) _ (detailE2 k n) r hopen).keep hmoves.events

end Sys2Proof.Machine
end

section
/-! A passed write judged at its end with its view back in POSITIONED (R109, R111, R114 to R116): torn, or full in READ-WRITE
space; and the words sent to the drive (R12, R108). -/

namespace Sys2Proof.Machine

/-! ## The words sent to the drive -/

theorem writeDataSent_format {g : GateRecord} {w : Carried} {h : Word} {rest : List Word} (hg : g.kind = .formatWrite)
    (hw : w.header = h :: rest) :
    writeDataSent g w = BitVec.ofNat 16 g.addr.cyl :: (rest.take 2 ++ w.data.take 256) := by
  rw [writeDataSent, if_pos hg, hw, replaceCylinder_take, List.cons_append]

theorem writeDataSent_data {g : GateRecord} {w : Carried} (h : g.kind ≠ .formatWrite ∨ w.header = []) :
    writeDataSent g w = w.data.take 256 := by
  rcases h with h | h
  · simp [writeDataSent, h]
  · simp [writeDataSent, h, replaceCylinder]

/-! ## A write that has dropped -/

theorem dropped_write {g : GateRecord} (hk : g.kind ≠ .read) (w : Carried) (s : State) :
    TouchesOnly [.relay, .drive] s (dropped g w s) ∧ (dropped g w s).drive.writeData = writeDataSent g w
      ∧ (dropped g w s).drive.readGate = false ∧ (dropped g w s).drive.writeGate = false := by
  let r : State := { s with relay := { s.relay with gate := none } }
  let d : State := { r with drive := { r.drive with writeData := writeDataSent g w } }
  have hrelayed : relayData (g.carry w) w r = d := if_neg hk
  have hdropped : dropped g w s = dropDriveGates d := by rw [← hrelayed]; rfl
  obtain ⟨hread, hwrite⟩ := dropDriveGates_low d
  rw [hdropped]
  refine ⟨?_, ?_, hread, hwrite⟩
  · exact ((touches_relay s _).mono (by decide)).trans
      (((touches_drive r _).mono (by decide)).trans ((dropDriveGates_touches d).mono (by decide)))
  · rw [dropDriveGates, (offerNext_decides _).drive]

/-- A write cut before its check word is torn, and reported to nobody (R109). -/
theorem endGate_torn {g : GateRecord} {w : Carried} {s : State} (hg : s.relay.gate = some g) (hk : g.kind ≠ .read)
    (hw : reachedCheckWord w = false) (k : TearCause) :
    endGate k w s = tearWrite (g.carry w) k (dropped g w s) := by
  have hshort : ¬(g.carry w).checkWord = true := by simp [GateRecord.carry, hw]
  have hkind : ¬(g.carry w).kind = .read := hk
  have hinterlock : ∀ t, reportInterlock (g.carry w) t = t := fun t => if_neg fun h => hshort h.2.1
  have hmailbox : ∀ t, reportMailbox (g.carry w) t = t := fun t => if_neg fun h => hshort h.2.2
  rw [endGate_eq hg, hinterlock, hmailbox, judgeGate, if_neg hkind, if_neg hshort]

/-- A full write outside MAILBOX space takes its address off the torn list, and is reported to the Interlock Unit alone
(R109, R116). -/
theorem endGate_full {g : GateRecord} {w : Carried} {s : State} (hg : s.relay.gate = some g) (hk : g.kind ≠ .read)
    (hw : reachedCheckWord w = true) (hc : g.cls ≠ .mailbox) (k : TearCause) :
    endGate k w s = reportInterlock (g.carry w) (mendSector g.addr (dropped g w s)) := by
  have hfull : (g.carry w).checkWord = true := hw
  have hkind : ¬(g.carry w).kind = .read := hk
  have hmailbox : ∀ t, reportMailbox (g.carry w) t = t := fun t => if_neg fun h => hc h.1
  rw [endGate_eq hg, hmailbox, judgeGate, if_neg hkind, if_pos hfull]
  rfl

/-! ## A torn write -/

theorem addTorn_relay (e : TornEntry) (s : State) :
    (addTorn e s).relay = { s.relay with torn := (addTorn e s).relay.torn } := by
  unfold addTorn
  simp only
  split
  · split <;> rfl
  · rfl

/-- A torn write touches the torn list, its two flags and the peer's causes (R114, R115). -/
theorem tearWrite_frame (g : GateRecord) (k : TearCause) (s : State) :
    let u := tearWrite g k s
    u.relay = { s.relay with torn := u.relay.torn } ∧ TouchesOnly [.view (peer g.chan), .relay, .ev] s u
      ∧ OnlyRaises [.chan g.chan .tornSector, .sole .tornListOverflow] s u := by
  let a := addTorn ⟨g.addr, .chan g.chan, k, s.uptime⟩ s
  let r := raiseFor g.chan .tornSector g.addr.whole (detailE7 k g.words) a
  have hrelay : r.relay = { s.relay with torn := r.relay.torn } := addTorn_relay _ s
  have hframe : TouchesOnly [.view (peer g.chan), .relay, .ev] s r :=
    ((addTorn_touches _ s).mono (by simp)).trans ((touches_ev a _).mono (by simp))
  have hraises : OnlyRaises [.chan g.chan .tornSector, .sole .tornListOverflow] s r :=
    ((addTorn_onlyRaises _ s).mono (by simp)).trans ((raiseFor_onlyRaises g.chan .tornSector _ _ rfl).mono (by simp))
  have hu : tearWrite g k s = if peerShares r g.chan g.addr then giveCause (peer g.chan) .peerTornWrite r else r := rfl
  simp only [hu]
  split
  · refine ⟨?_, hframe.trans ((giveCause_touches _ _ r).mono (by simp)), ?_⟩
    · rw [giveCause_relay]
      exact hrelay
    · simpa only [OnlyRaises, giveCause_ev] using hraises
  · exact ⟨hrelay, hframe, hraises⟩

/-- A passed write cut before its check word, its view back in POSITIONED (R33, R109, R114, R115). -/
structure WriteTorn (k : TearCause) (g : GateRecord) (w : Carried) (s u : State) : Prop where
  relay    : u.relay = { s.relay with
    gate := none,
    torn := let kept := s.relay.torn.filter fun e => decide (e.addr ≠ g.addr)
      (if kept.length < 4 then kept else kept.tail) ++ [⟨g.addr, .chan g.chan, k, s.uptime⟩] }
  st       : (u.view g.chan).st = .positioned
  idle     : (u.view g.chan).idle = 0
  readLow  : u.drive.readGate = false
  writeLow : u.drive.writeGate = false
  data     : u.drive.writeData = writeDataSent g w
  frame    : TouchesOnly [.view g.chan, .view (peer g.chan), .drive, .relay, .ev] s u
  raises   : OnlyRaises [.chan g.chan .tornSector, .sole .tornListOverflow] s u
  told     : (s.view (peer g.chan)).st ≠ .detached → spanHas (s.map.extents (peer g.chan)) g.addr.vol g.addr.cyl
    (fun k => decide (k = .shared ∨ k = .mailbox)) = true → (u.view (peer g.chan)).causes.peerTornWrite = true
  record   : Open (.chan g.chan .tornSector) s →
    Recorded (.chan g.chan .tornSector) (k.code * 2 ^ 13 + wordsPassed w) u

theorem gateEnd_torn {c : Chan} {g : GateRecord} {w : Carried} {s : State} (hp : PlainGate s c g) (hk : g.kind ≠ .read)
    (hw : reachedCheckWord w = false) (k : TearCause) :
    WriteTorn k g w s (reportGateEnd (endGatePositioned k w s)) := by
  have hshort : ¬FullShared g w := fun hf => nomatch hw.symm.trans hf.2.1
  have hend := gateEnd_unreported hp hshort k
  obtain ⟨hg, rfl, -, -, -⟩ := hp
  let d := dropped g w s
  let t := tearWrite (g.carry w) k d
  have hu : reportGateEnd (endGatePositioned k w s) = repositioned g.chan t := by rw [hend, endGate_torn hg hk hw]
  obtain ⟨hdrop, hdata, hread, hwrite⟩ := dropped_write hk w s
  have hdrelay : d.relay = { s.relay with gate := none } := dropped_relay g w s
  have hdup : d.uptime = s.uptime := hdrop .uptime (by decide)
  have hdmap : d.map = s.map := hdrop .map (by decide)
  have hdev : d.ev = s.ev := hdrop .ev (by decide)
  have hdview : d.view (peer g.chan) = s.view (peer g.chan) := hdrop (.view (peer g.chan)) (by simp)
  obtain ⟨hrelay, hframe, hraises⟩ := tearWrite_frame (g.carry w) k d
  obtain ⟨-, htorn, hrecord, hcause⟩ := tearWrite_judges (g.carry w) k d
  have htdrive : t.drive = d.drive := hframe .drive (by simp)
  have hpeer : (repositioned g.chan t).view (peer g.chan) = t.view (peer g.chan) := setView_view_peer _ _ _
  rw [hu]
  refine ⟨?relay, by rw [repositioned_view], by rw [repositioned_view], ?_, ?_, ?_, ?frame, ?raises, fun ha hs => ?told,
    fun hopen => ?record⟩
  case relay =>
    rw [show (repositioned g.chan t).relay = t.relay from rfl, hrelay, htorn, hdrelay, hdup]
    rfl
  · rw [show (repositioned g.chan t).drive = _ from htdrive, hread]
  · rw [show (repositioned g.chan t).drive = _ from htdrive, hwrite]
  · rw [show (repositioned g.chan t).drive = _ from htdrive, hdata]
  case frame =>
    exact (hdrop.mono (by simp)).trans ((hframe.mono (by simp [GateRecord.carry])).trans
      ((repositioned_touches g.chan t).mono (by simp)))
  case raises =>
    rw [OnlyRaises, hdev] at hraises
    exact hraises
  case told =>
    rw [hpeer]
    exact hcause (by rw [show d.view (peer (g.carry w).chan) = _ from hdview]; exact ha) (by rw [hdmap]; exact hs)
  case record => exact hrecord (by rw [Open, hdev]; exact hopen)

/-! ## A full write in READ-WRITE space -/

/-- A full write in READ-WRITE space takes its address off the torn list and reports to nobody (R109, R116). -/
theorem gateEnd_mended {c : Chan} {g : GateRecord} {w : Carried} {s : State} (hp : PlainGate s c g) (hk : g.kind ≠ .read)
    (hw : reachedCheckWord w = true) (hc : g.cls = .readWrite) (k : TearCause) :
    reportGateEnd (endGatePositioned k w s) = repositioned c (mendSector g.addr (dropped g w s)) := by
  have hunshared : ¬FullShared g w := fun hf => nomatch hc.symm.trans hf.2.2
  have hreport : ∀ t, reportInterlock (g.carry w) t = t := fun t => if_neg hunshared
  rw [gateEnd_unreported hp hunshared, endGate_full hp.1 hk hw (by simp [hc]), hreport]

/-- Settles O24: a write that is torn, one that is full in READ-WRITE space, then the words sent. -/
theorem writeJudgedAtItsDrop : Obligations.WriteJudgedAtItsDrop := by
  intro c w s g hp hk _
  have hexec := exec_gateDrop hp w
  have hended : TouchesOnly [.port c] s (endPortGate c s) := endPortGate_touches c s
  have hp' := hp.endPortGate
  rw [endPortGate_eq] at hexec hended hp'
  refine ⟨fun hw => ?torn, fun hw hc => ?full, fun h rest => writeDataSent_format, writeDataSent_data⟩
  case torn =>
    have htorn := gateEnd_torn hp' hk hw .shortWrite
    obtain ⟨-, rfl, -⟩ := hp
    refine ⟨_, hexec, htorn.relay, htorn.st, htorn.idle, htorn.readLow, htorn.writeLow, htorn.data,
      (hended.mono (by simp)).trans (htorn.frame.mono (by simp)), htorn.raises, htorn.told, fun hopen => ?_⟩
    have hrecord := htorn.record hopen
    rwa [show TearCause.shortWrite.code * 2 ^ 13 + wordsPassed w = wordsPassed w by simp [TearCause.code]] at hrecord
  case full =>
    rw [gateEnd_mended hp' hk hw hc] at hexec
    obtain ⟨hdrop, hdata, hread, hwrite⟩ := dropped_write hk w (setPort c (s.port c).ended s)
    have hrelay := dropped_relay g w (setPort c (s.port c).ended s)
    have hview := hdrop (.view c) (by simp)
    refine ⟨_, hexec, ?relay, ?view, hread, hwrite, hdata, ?frame⟩
    case relay =>
      show (mendSector g.addr (dropped g w _)).relay = _
      simp only [mendSector, setTorn, hrelay]
      rfl
    case view =>
      rw [repositioned_view]
      exact congrArg (fun v : View => { v with st := .positioned, idle := 0 }) hview
    case frame =>
      exact (hended.mono (by simp)).trans ((hdrop.mono (by simp)).trans
        (((touches_relay _ _).mono (by simp)).trans ((repositioned_touches c _).mono (by simp))))

end Sys2Proof.Machine
end

section
/-! What the end of a gate keeps of the arbiter (`NoNewEnd`), and a write cut in its course (R111, R112, R150): its clock
stopped, or still up at its check word in a supply hold. -/

namespace Sys2Proof.Machine

/-! ## The internal queue, and the mark of a grant's end -/

/-- The internal queue is kept, and no grant has its end marked that had not before (R67, R79). -/
structure NoNewEnd (s t : State) : Prop where
  queue : t.arb.queue = s.arb.queue
  marks : ∀ c, EndMarked t c → EndMarked s c

theorem NoNewEnd.of_arb {s t : State} (h : t.arb = s.arb) : NoNewEnd s t :=
  ⟨by rw [h], fun c => by rw [EndMarked, h]; exact id⟩

theorem NoNewEnd.refl (s : State) : NoNewEnd s s := .of_arb rfl

theorem NoNewEnd.trans {s t u : State} (h : NoNewEnd s t) (k : NoNewEnd t u) : NoNewEnd s u :=
  ⟨k.queue.trans h.queue, fun c hc => h.marks c (k.marks c hc)⟩

theorem NoNewEnd.after {s t u : State} (k : NoNewEnd t u) (h : t.arb = s.arb) : NoNewEnd s u :=
  (NoNewEnd.of_arb h).trans k

theorem grantTo_noNewEnd (z : Chan) (s : State) : NoNewEnd s (grantTo z s) := by
  cases h : s.arb.request.get z with
  | none => rw [grantTo_none h]; exact .refl s
  | some p =>
    have harb := grantTo_arb h
    refine ⟨by rw [harb]; rfl, fun c hc => ?_⟩
    rw [EndMarked, harb] at hc
    exact nomatch hc.2

theorem decideGrant_noNewEnd (s : State) : NoNewEnd s (decideGrant s) := by
  rcases decideGrant_cases s with h | ⟨-, h⟩ | ⟨z, -, h⟩ | ⟨z, -, h⟩ <;> rw [h]
  · exact .refl s
  · have harb := (grantInternal_eq s).1
    refine ⟨by rw [harb], fun c hc => ?_⟩
    rw [EndMarked, harb] at hc
    exact nomatch hc.1
  · exact grantTo_noNewEnd z s
  · exact (grantTo_noNewEnd z _).after rfl

/-- A passage to FREE clears the mark (R80). -/
theorem toFree_noNewEnd {s t : State} (h : t.arb.queue = s.arb.queue) : NoNewEnd s (toFree t) := by
  have hfreed : NoNewEnd s (freed t) := ⟨h, fun _ hc => nomatch hc.2⟩
  rw [toFree_eq]
  exact hfreed.trans (decideGrant_noNewEnd _)

theorem grantEnd_noNewEnd (c : Chan) (k : EndCause) (s : State) : NoNewEnd s (grantEnd c k s) := by
  have hbudget : (if k = .budget then preempt c (charge c s) else charge c s).arb.queue = s.arb.queue := by
    split
    · rw [preempt_arb]; rfl
    · rfl
  have hhead : ∀ t, (headAtGrantEnd c t).arb.queue = t.arb.queue := fun _ => rfl
  have hview : ∀ t, (viewGrantEnd c t).arb = t.arb := fun t => viewGrantEnd_touches c t .arb (by simp)
  refine toFree_noNewEnd ((hhead _).trans ?_)
  by_cases hk : k = .reseek ∨ k = .giveUp
  · rw [if_pos hk]; exact hbudget
  · rw [if_neg hk, hview]; exact hbudget

theorem claimEnd_noNewEnd (c : Chan) (b : Bool) (s : State) : NoNewEnd s (claimEnd c b s) :=
  toFree_noNewEnd (by cases b <;> rfl)

theorem judgeRelease_noNewEnd (s : State) : NoNewEnd s (judgeRelease s) := by
  unfold judgeRelease
  split
  · split
    · split
      · exact grantEnd_noNewEnd _ _ s
      · exact .refl s
    · exact .refl s
  · exact .refl s

theorem withRequest_noNewEnd (c : Chan) (p : Option Place) (s : State) : NoNewEnd s (withRequest c p s) :=
  ⟨rfl, fun _ => id⟩

theorem reseek_noNewEnd (c : Chan) (p : Place) (s : State) : NoNewEnd s (reseek c p s) := by
  unfold reseek
  split
  · exact grantEnd_noNewEnd c _ s
  · refine ⟨by rw [seekFor_arb], fun d hd => ?_⟩
    rw [EndMarked, seekFor_arb] at hd
    exact nomatch hd.1

theorem requestArrives_noNewEnd (c : Chan) (p : Place) (s : State) : NoNewEnd s (requestArrives c p s) := by
  refine (withRequest_noNewEnd c (some p) s).trans ?_
  cases h : s.arb.st with
  | free =>
    have hdecide : requestArrives c p s = decideGrant (withRequest c (some p) s) := by
      rcases s with ⟨_, _, _, ⟨st⟩⟩
      obtain rfl : st = .free := h
      rfl
    rw [hdecide]
    exact decideGrant_noNewEnd _
  | claimed x k =>
    rw [requestArrives_claim h]
    unfold retargetHeld
    split
    · split <;> exact ⟨rfl, fun _ => id⟩
    · exact .refl _
  | owned x =>
    rw [requestArrives_owned h]
    split
    · exact reseek_noNewEnd c p _
    · split
      · exact .refl _
      · exact judgeRelease_noNewEnd _
  | internal => rw [requestArrives_keeps (.inl h)]; exact .refl _
  | halted => rw [requestArrives_keeps (.inr (.inl h))]; exact .refl _

theorem withdrawRequest_noNewEnd (c : Chan) (s : State) : NoNewEnd s (withdrawRequest c s) := by
  have hrecord : NoNewEnd s { s with arb := withoutRequest s c } := by
    refine ⟨rfl, fun d ⟨hst, hmark⟩ => ⟨hst, ?_⟩⟩
    simp only [withoutRequest] at hmark
    split at hmark
    · exact nomatch hmark
    · exact hmark
  by_cases h : (∃ k, s.arb.st = .claimed c k) ∧ s.pos.held ≠ none
  · obtain ⟨⟨k, hk⟩, hheld⟩ := h
    obtain ⟨n, hn⟩ := Option.ne_none_iff_exists'.1 hheld
    rw [withdrawRequest_claim hk hn]
    exact hrecord.trans (claimEnd_noNewEnd c _ _)
  · rw [withdrawRequest_record h]
    exact hrecord

theorem releaseTest_noNewEnd (c : Chan) (s : State) : NoNewEnd s (releaseTest c s) := by
  unfold releaseTest
  split
  · split
    · exact .of_arb rfl
    · cases h : (s.view c).place with
      | none => simp only [letThrough, h]; exact .of_arb rfl
      | some p => rw [letThrough_eq h]; exact (requestArrives_noNewEnd c p _).after rfl
  · exact .refl s

theorem removeEntries_noNewEnd (test : Entry → Bool) (s : State) : NoNewEnd s (removeEntries test s) := by
  have h : NoNewEnd s { s with ilock := s.ilock.remove test } := .of_arb rfl
  unfold removeEntries
  simp only
  split <;> split
  · exact (h.trans (releaseTest_noNewEnd .a _)).trans (releaseTest_noNewEnd .b _)
  · exact h.trans (releaseTest_noNewEnd .b _)
  · exact h.trans (releaseTest_noNewEnd .a _)
  · exact h

/-! ## The end of a gate -/

theorem fullSharedWrite_noNewEnd (c : Chan) (p : Place) (s : State) : NoNewEnd s (fullSharedWrite c p s) := by
  have happend : ∀ t, NoNewEnd t (appendEntry c p t) := fun t => by
    unfold appendEntry
    simp only
    split
    · exact (withdrawRequest_noNewEnd _ _).after rfl
    · exact .of_arb rfl
  have hoverflow : NoNewEnd s (overflowOldest c s) := by
    unfold overflowOldest
    split
    · exact .refl s
    · exact (removeEntries_noNewEnd _ _).after rfl
  unfold fullSharedWrite
  split
  · exact .of_arb rfl
  · split
    · split <;> exact .of_arb rfl
    · split
      · exact (happend _).after rfl
      · exact hoverflow.trans ((happend _).after rfl)

theorem endGate_noNewEnd (k : TearCause) (w : Carried) (s : State) : NoNewEnd s (endGate k w s) := by
  cases hg : s.relay.gate with
  | none => simp only [endGate, hg]; exact .refl s
  | some g =>
    have hjudged : (judgeGate (g.carry w) k (dropped g w s)).arb = s.arb :=
      Eq.trans ((judgeGate_marks _ k _).frame .arb (by decide)) (dropped_touches g w s .arb (by simp))
    have hreport : ∀ t, NoNewEnd t (reportInterlock (g.carry w) t) := fun t => by
      unfold reportInterlock
      split
      · exact fullSharedWrite_noNewEnd _ _ t
      · exact .refl t
    rw [endGate_eq hg]
    exact ((hreport _).after hjudged).trans (.of_arb ((reportMailbox_posts _ _).frame .arb (by decide)))

/-- What the view's way back to POSITIONED leaves after a gate's end, and of the part before it (R33, R79, R109). -/
structure WayBack (k : TearCause) (w : Carried) (s t : State) : Prop where
  decides  : Decides (endGate k w s) t
  begins   : Begins s t
  queue    : t.arb.queue = s.arb.queue
  attached : ∀ c, (s.view c).st ≠ .detached → (t.view c).st ≠ .detached

theorem endGatePositioned_wayBack {g : GateRecord} {s : State} (hg : s.relay.gate = some g) (k : TearCause) (w : Carried) :
    WayBack k w s (endGatePositioned k w s) := by
  let e := endGate k w s
  let r := idleToZero g.chan e
  have hidle : Decides e r ∧ Begins e r ∧ NoNewEnd e r ∧ Steady e r := by
    simp only [r, idleToZero]
    split
    · exact ⟨.refl e, .refl e, .refl e, .refl e⟩
    · exact ⟨decides_setView g.chan (e.view g.chan).st 0 (e.view g.chan).causes.preempted e, .of_map rfl, .of_arb rfl,
        steady_view id⟩
  have hback : Decides r (backToPositioned g.chan r) ∧ Begins r (backToPositioned g.chan r)
      ∧ NoNewEnd r (backToPositioned g.chan r) ∧ Steady r (backToPositioned g.chan r) := by
    have hset := decides_setViewState g.chan .positioned r
    have hsteady : Steady r (setViewState g.chan .positioned r) := setViewState_steady _ (k := .positioned) (by decide) r
    unfold backToPositioned
    split
    · simp only
      split
      · exact ⟨hset.trans (grantEnd_decides _ _ _), (grantEnd_begins _ _ _).after rfl, (grantEnd_noNewEnd _ _ _).after rfl,
          hsteady.trans (grantEnd_steady _ _ _)⟩
      · exact ⟨hset, .of_map rfl, .of_arb rfl, hsteady⟩
    · exact ⟨.refl r, .refl r, .refl r, .refl r⟩
  have hu : endGatePositioned k w s = backToPositioned g.chan r := by
    have hactive : activeChan s = some g.chan := by simp [activeChan, hg]
    simp only [endGatePositioned, hactive]
    rfl
  obtain ⟨idecides, ibegins, iqueue, isteady⟩ := hidle
  obtain ⟨bdecides, bbegins, bqueue, bsteady⟩ := hback
  rw [hu]
  exact ⟨idecides.trans bdecides, (endGate_begins k w s).trans (ibegins.trans bbegins),
    ((endGate_noNewEnd k w s).trans (iqueue.trans bqueue)).queue,
    ((endGate_steady k w s).trans (isteady.trans bsteady)).attached⟩

/-! ## The halt that completes a supply hold -/

theorem viewsUnusable_map (s : State) : (viewsUnusable s).map = s.map := by
  have hview : ∀ c t, (viewUnusable c t).map = t.map := fun c t => by unfold viewUnusable; split <;> rfl
  have hnone : ∀ c, ((viewUnusable .b (viewUnusable .a s)).view c).st ≠ .deferred := by
    intro c
    rw [bothUnusable_st]
    split <;> simp
  unfold viewsUnusable
  simp only [removeEntries_not_deferred _ hnone]
  exact (hview .b _).trans (hview .a s)

/-- The halt of R150 ends the wait for the gate and the transfer in hand; the internal queue keeps its entries. -/
theorem holdHalt_completes (s : State) :
    let u := holdHalt s
    u.watch = { s.watch with writeEndWait := false } ∧ u.map = { s.map with xfer := .none }
      ∧ u.arb.queue = s.arb.queue ∧ u.line = s.line := by
  let r : State := { s with watch := { s.watch with writeEndWait := false } }
  have hmoves := (halt_moves r).trans (viewsUnusable_moves _)
  obtain ⟨⟨_, harb⟩, -, -⟩ := viewsUnusable_eq (halt r)
  refine ⟨hmoves.frame .watch (by decide), (viewsUnusable_map _).trans (halt_map r), ?_, hmoves.frame .line (by decide)⟩
  show (viewsUnusable (halt r)).arb.queue = _
  rw [harb, halt_arb]

/-! ## The cuts -/

theorem exec_writeClockLost {g : GateRecord} {w : Carried} {s : State} (hg : s.relay.gate = some g) (hk : g.kind ≠ .read)
    (hd : dataFieldStarted w = true) (hw : reachedCheckWord w = false) :
    exec (.writeClockLost w) s = .next (reportGateEnd (endGatePositioned .presenceLost w s)) := by
  simp [exec, execWriteClockLost, writeActive, hg, hk, hd, hw]

theorem exec_supplyWriteCut {g : GateRecord} {w : Carried} {s : State} (hg : s.relay.gate = some g) (hk : g.kind ≠ .read)
    (hw : reachedCheckWord w = true) (hh : s.watch.st = .supplyHold) :
    exec (.supplyWriteCutAtCheckWord w) s = .next (reportGateEnd (endGatePositioned .shortWrite w s)) := by
  simp [exec, execSupplyWriteCutAtCheckWord, writeActive, hg, hk, hw, hh]

/-- Settles O28: the write torn by its clock, then the one cut at its check word and the halt that follows. -/
theorem writeCutInItsCourse : Obligations.WriteCutInItsCourse := by
  intro c w s g hk
  refine ⟨fun hp hd hw => ?clock, fun hg hc hw hh hwait => ?hold⟩
  case clock =>
    have htorn := gateEnd_torn hp hk hw .presenceLost
    obtain ⟨hg, rfl, -⟩ := hp
    refine ⟨_, exec_writeClockLost hg hk hd hw, ?_, htorn.st, ?_, htorn.writeLow, htorn.frame, htorn.raises⟩ <;>
      rw [htorn.relay]
    simp
  case hold =>
    let e := endGate .shortWrite w s
    let t := endGatePositioned .shortWrite w s
    have hended : GateEnded .shortWrite g w s e := endGate_ended hg .shortWrite w
    obtain ⟨hdecides, hbegins, hqueue, hattached⟩ : WayBack .shortWrite w s t := endGatePositioned_wayBack hg .shortWrite w
    obtain ⟨hgate, -, hfull, -⟩ := hended.judged
    have hmoves := endGatePositioned_moves .shortWrite w s
    have hwatch : t.watch = s.watch := hmoves.frame .watch (by decide)
    have hline : t.line = s.line := hmoves.frame .line (by decide)
    have hread : t.drive.readGate = false := by rw [hdecides.drive]; exact hended.readLow
    have hwrite : t.drive.writeGate = false := by rw [hdecides.drive]; exact hended.writeLow
    have hu : reportGateEnd t = holdHalt t :=
      if_pos ⟨by rw [hwatch]; exact hh, by rw [hwatch]; exact hwait, (not_gateUp_iff t).2 ⟨hread, hwrite⟩⟩
    have hlow : Guards t (holdHalt t) := by
      rw [← hu]
      exact (reportGateEnd_lowered t).guards
    obtain ⟨uwatch, umap, uqueue, uline⟩ := holdHalt_completes t
    refine ⟨holdHalt t, (exec_supplyWriteCut hg hk hw hh).trans (by rw [← hu]), ?_, ?_, hlow.write.trans hwrite,
      by rw [uwatch, hwatch], uqueue.trans hqueue, ?_, uline.trans hline, down_of_halt hattached⟩
    · rw [hlow.torn, hdecides.torn]
      exact hfull hk hw
    · rw [hlow.gate, hdecides.gate]
      exact hgate
    · rw [umap, hbegins.map]

end Sys2Proof.Machine
end

section
/-! A full write in SHARED space at the Interlock Unit (R119, R120, R124, R129): an entry extended, one kept, a new one in
room or over the oldest, and a peer deferred on its place. -/

namespace Sys2Proof.Machine

/-! ## A new entry -/

/-- The entry of a channel's first full write on a place (R119). -/
def Entry.fresh (c : Chan) (p : Place) (now : Stamp) : Entry := ⟨c, p.vol, p.cyl, now, now, 1⟩

/-- The part with a new entry at the end of the list. -/
def withEntry (c : Chan) (p : Place) (s : State) : State :=
  { s with ilock := { s.ilock with list := s.ilock.list ++ [.fresh c p s.uptime] } }

/-- A new entry defers no peer that is not REQUESTING on its place (R124). -/
theorem appendEntry_quiet {c : Chan} {p : Place} {s : State}
    (h : ¬((s.view (peer c)).st = .requesting ∧ (s.view (peer c)).place = some p)) :
    appendEntry c p s = withEntry c p s := if_neg h

/-- A new entry defers a peer that is REQUESTING on its place, and withdraws its request (R124). -/
theorem appendEntry_deferring {c : Chan} {p : Place} {s : State} (hst : (s.view (peer c)).st = .requesting)
    (hp : (s.view (peer c)).place = some p) :
    appendEntry c p s =
      withdrawRequest (peer c)
        (setDeferred (peer c) (some p) (setViewState (peer c) .deferred (withEntry c p s))) := if_pos ⟨hst, hp⟩

theorem appendEntry_defers {c : Chan} {p : Place} {s : State} (hst : (s.view (peer c)).st = .requesting)
    (hp : (s.view (peer c)).place = some p) :
    let u := appendEntry c p s
    u.view (peer c) = { s.view (peer c) with st := .deferred } ∧ u.arb.request.get (peer c) = none
      ∧ u.ilock.deferred.get (peer c) = some p := by
  let r := setDeferred (peer c) (some p) (setViewState (peer c) .deferred (withEntry c p s))
  have hview : r.view (peer c) = { s.view (peer c) with st := .deferred } := by
    rw [setDeferred_view, setViewState_view, if_pos rfl]
    rfl
  have hdeferred : r.ilock.deferred.get (peer c) = some p := Pair.get_set_self _ _ _
  obtain ⟨kview, krecord, -, kdeferred⟩ := withdrawRequest_quiet (peer c) r
  rw [appendEntry_deferring hst hp]
  exact ⟨kview.trans hview, krecord, kdeferred.trans hdeferred⟩

/-- Whoever it defers, a new entry joins the list and leaves the chain stamps and the events. -/
theorem appendEntry_entry (c : Chan) (p : Place) (s : State) :
    (appendEntry c p s).ilock.list = s.ilock.list ++ [.fresh c p s.uptime]
      ∧ (appendEntry c p s).ilock.chain = s.ilock.chain ∧ (appendEntry c p s).ev = s.ev := by
  by_cases h : (s.view (peer c)).st = .requesting ∧ (s.view (peer c)).place = some p
  · let r := setDeferred (peer c) (some p) (setViewState (peer c) .deferred (withEntry c p s))
    have hwithdrawn := withdrawRequest_decides (peer c) r
    rw [appendEntry_deferring h.1 h.2]
    exact ⟨hwithdrawn.list, hwithdrawn.chain, (withdrawRequest_quiet (peer c) r).2.2.1⟩
  · rw [appendEntry_quiet h]
    exact ⟨rfl, rfl, rfl⟩

/-! ## The oldest entry removed -/

/-- The entry that makes room goes with E23, whatever its removal releases (R119, R125, R129). -/
theorem overflowOldest_removes {c : Chan} {s : State} {old : Entry} {rest : List Entry}
    (h : entriesOf s c = old :: rest) :
    let u := overflowOldest c s
    u.ilock.list = s.ilock.list.filter (fun e => !decide (e.holder = c ∧ e.vol = old.vol ∧ e.cyl = old.cyl))
      ∧ u.uptime = s.uptime
      ∧ (Open (.chan c .interlockOverflow) s → Recorded (.chan c .interlockOverflow) old.sectors u) := by
  let r := raiseFor c .interlockOverflow (placeAddr old.vol old.cyl) old.sectors s
  have hu : overflowOldest c s = removeEntries (fun e => decide (e.holder = c) && e.holds ⟨old.vol, old.cyl⟩) r := by
    simp only [overflowOldest, h, r]
  have hmoves := removeEntries_moves (fun e => decide (e.holder = c) && e.holds ⟨old.vol, old.cyl⟩) r
  simp only [hu]
  refine ⟨?_, hmoves.frame .uptime (by decide), fun hopen => (recorded_raise _ _ _ _ s hopen).keep hmoves.events⟩
  rw [removeEntries_list]
  simp only [Entry.holds, Bool.decide_and]
  rfl

/-- A removal of a channel's own entries leaves a peer that is not DEFERRED, and its record (R125). -/
theorem removeEntries_own {c : Chan} {s : State} {test : Entry → Bool} (ht : ∀ e, test e = true → e.holder = c)
    (hp : (s.view (peer c)).st ≠ .deferred) :
    removeEntries test s = { s with ilock := s.ilock.remove test } := by
  have hpeer : releaseTest (peer c) { s with ilock := s.ilock.remove test } = { s with ilock := s.ilock.remove test } :=
    if_neg hp
  have hnone : anyEntryOf s (peer c) test = false := by
    rw [anyEntryOf, List.any_eq_false]
    intro e _ h
    simp only [Bool.and_eq_true, decide_eq_true_eq] at h
    exact peer_ne c (h.1.symm.trans (ht e h.2))
  cases c with
  | a =>
    simp only [peer] at hpeer hnone
    simp only [removeEntries, hnone, hpeer, Bool.false_eq_true, if_false, ite_self]
  | b =>
    simp only [peer] at hpeer hnone
    simp only [removeEntries, hnone, hpeer, Bool.false_eq_true, if_false, ite_self]

theorem overflowOldest_peer {c : Chan} {s : State} (hp : (s.view (peer c)).st ≠ .deferred) :
    (overflowOldest c s).view (peer c) = s.view (peer c) := by
  unfold overflowOldest
  split
  · rfl
  · next old rest _ =>
    have hown : ∀ e : Entry, (decide (e.holder = c) && e.holds ⟨old.vol, old.cyl⟩) = true → e.holder = c := by
      intro e h
      simp only [Bool.and_eq_true, decide_eq_true_eq] at h
      exact h.1
    exact congrArg (·.view (peer c))
      (removeEntries_own (s := raiseFor c .interlockOverflow (placeAddr old.vol old.cyl) old.sectors s) hown hp)

/-! ## The report of a full SHARED write -/

/-- A channel that holds the place extends its entry (R119). -/
theorem fullSharedWrite_extends {c : Chan} {p : Place} {s : State} (h : heldBy s c p = true) :
    let u := fullSharedWrite c p s
    u.ilock.list = s.ilock.list.map (fun e =>
        if e.holder = c ∧ e.vol = p.vol ∧ e.cyl = p.cyl then
          { e with last := s.uptime, sectors := countUp 65535 e.sectors }
        else e)
      ∧ u.ilock.chain.get c = some s.uptime := by
  have hlist : s.ilock.list.map (extendEntry p s.uptime c) = s.ilock.list.map (fun e =>
      if e.holder = c ∧ e.vol = p.vol ∧ e.cyl = p.cyl then
        { e with last := s.uptime, sectors := countUp 65535 e.sectors }
      else e) := by
    refine List.map_congr_left fun e _ => ?_
    simp only [extendEntry, Entry.holds, Bool.and_eq_true, decide_eq_true_eq]
  simp only [fullSharedWrite, h, if_true, setChain_ilock, Pair.get_set_self, and_true]
  exact hlist

/-- Where the peer holds the place no list changes, and a channel with entries has its chain stamped (R119, R120). -/
theorem fullSharedWrite_peerHolds {c : Chan} {p : Place} {s : State} (h : heldBy s c p = false)
    (hp : heldBy s (peer c) p = true) :
    let u := fullSharedWrite c p s
    u.ilock.list = s.ilock.list ∧ (entriesOf s c = [] → u.ilock.chain = s.ilock.chain)
      ∧ (entriesOf s c ≠ [] → u.ilock.chain.get c = some s.uptime) := by
  have hu : fullSharedWrite c p s = if (entriesOf s c).isEmpty then s else setChain c s.uptime s := by
    simp only [fullSharedWrite, h, hp, Bool.false_eq_true, if_false, if_true]
  simp only [hu, List.isEmpty_iff]
  by_cases hn : entriesOf s c = []
  · rw [if_pos hn]
    exact ⟨rfl, fun _ => rfl, fun hs => absurd hn hs⟩
  · rw [if_neg hn]
    exact ⟨rfl, fun hs => absurd hs hn, fun _ => Pair.get_set_self _ _ _⟩

/-- A place that nobody holds gets a new entry, once there is room (R119). -/
theorem fullSharedWrite_new {c : Chan} {p : Place} {s : State} (h : heldBy s c p = false)
    (hp : heldBy s (peer c) p = false) :
    fullSharedWrite c p s =
      appendEntry c p (setChain c s.uptime (if (entriesOf s c).length < 4 then s else overflowOldest c s)) := by
  simp only [fullSharedWrite, h, hp, Bool.false_eq_true, if_false]
  split <;> rfl

theorem fullSharedWrite_joins {c : Chan} {p : Place} {s : State} (h : heldBy s c p = false)
    (hp : heldBy s (peer c) p = false) :
    let r := if (entriesOf s c).length < 4 then s else overflowOldest c s
    let u := fullSharedWrite c p s
    u.ilock.list = r.ilock.list ++ [.fresh c p r.uptime] ∧ u.ilock.chain.get c = some s.uptime ∧ u.ev = r.ev := by
  intro r u
  obtain ⟨hlist, hchain, hev⟩ := appendEntry_entry c p (setChain c s.uptime r)
  have hu : u = appendEntry c p (setChain c s.uptime r) := fullSharedWrite_new h hp
  rw [hu]
  exact ⟨hlist, by rw [hchain]; exact Pair.get_set_self _ _ _, hev⟩

/-- A new entry defers a peer that is REQUESTING on its place, whatever makes room for it (R124). -/
theorem fullSharedWrite_defers {c : Chan} {p : Place} {s : State} (h : heldBy s c p = false)
    (hp : heldBy s (peer c) p = false) (hst : (s.view (peer c)).st = .requesting)
    (hplace : (s.view (peer c)).place = some p) :
    let u := fullSharedWrite c p s
    u.view (peer c) = { s.view (peer c) with st := .deferred } ∧ u.arb.request.get (peer c) = none
      ∧ u.ilock.deferred.get (peer c) = some p := by
  let r := setChain c s.uptime (if (entriesOf s c).length < 4 then s else overflowOldest c s)
  have hview : r.view (peer c) = s.view (peer c) := by
    show (if (entriesOf s c).length < 4 then s else overflowOldest c s).view (peer c) = _
    split
    · rfl
    · exact overflowOldest_peer (by rw [hst]; decide)
  have hdefers := appendEntry_defers (c := c) (p := p) (s := r) (by rw [hview]; exact hst) (by rw [hview]; exact hplace)
  rw [hview] at hdefers
  rw [fullSharedWrite_new h hp]
  exact hdefers

/-- A peer that is REQUESTING another place is not deferred (R124). -/
theorem fullSharedWrite_sparesPeer {c : Chan} {p : Place} {s : State} (h : heldBy s c p = false)
    (hp : heldBy s (peer c) p = false) (hroom : (entriesOf s c).length < 4)
    (hplace : (s.view (peer c)).place ≠ some p) :
    fullSharedWrite c p s = withEntry c p (setChain c s.uptime s) := by
  rw [fullSharedWrite_new h hp, if_pos hroom]
  exact appendEntry_quiet fun hn => hplace hn.2

/-! ## The end of a full SHARED write -/

/-- The part in which a full SHARED write is reported: its gate down, its address off the torn list (R109, R116). -/
def sharedWritten (g : GateRecord) (w : Carried) (s : State) : State :=
  mendSector g.addr (dropped g w (endPortGate g.chan s))

theorem sharedWritten_touches {g : GateRecord} (hk : g.kind ≠ .read) (w : Carried) (s : State) :
    TouchesOnly [.port g.chan, .relay, .drive] s (sharedWritten g w s) :=
  ((endPortGate_touches g.chan s).mono (by simp)).trans (((dropped_write hk w _).1.mono (by simp)).trans
    ((touches_relay _ _).mono (by simp)))

/-- The drop of a full SHARED write: the report, then the view back in POSITIONED (R33, R109, R119). -/
theorem exec_sharedDrop {c : Chan} {g : GateRecord} {w : Carried} {s : State} (hp : PlainGate s c g)
    (hf : FullShared g w) (hr : s.arb.request.get c = none) :
    exec (.gateDrop c w) s =
      .next (repositioned c (fullSharedWrite c ⟨g.addr.vol, g.addr.cyl⟩ (sharedWritten g w s))) := by
  have hexec := exec_gateDrop hp w
  have hp' := hp.endPortGate
  have hended := endPortGate_eq c s
  obtain ⟨hk, hw, hc⟩ := id hf
  obtain ⟨hg, rfl, hv, hm, -⟩ := id hp
  have hbusy : Busy (endPortGate g.chan s) g.chan := by
    rw [hended]
    exact ⟨hv, hr⟩
  have hmark : ¬EndMarked (endPortGate g.chan s) g.chan := by
    rw [hended]
    exact hm
  have hend := gateEnd_plain (k := .shortWrite) (w := w) hp' ((endGate_ended hp'.1 .shortWrite w).busy _ hbusy).1
    fun hn => hmark ((endGate_noNewEnd .shortWrite w _).marks _ hn)
  have hreport : ∀ t, reportInterlock (g.carry w) t = fullSharedWrite g.chan ⟨g.addr.vol, g.addr.cyl⟩ t :=
    fun t => if_pos hf
  rw [hexec, hend, endGate_full hp'.1 hk hw (by simp [hc]), hreport]
  rfl

/-- Settles O25: by who holds the place, and by the room in the list. -/
theorem fullSharedWriteMakesInterlock : Obligations.FullSharedWriteMakesInterlock := by
  intro c w s g hp hk hw hc hr fresh held peerHeld
  let p : Place := ⟨g.addr.vol, g.addr.cyl⟩
  let r := sharedWritten g w s
  let v := fullSharedWrite c p r
  let u := repositioned c v
  have hexec : exec (.gateDrop c w) s = .next u := exec_sharedDrop hp ⟨hk, hw, hc⟩ hr
  obtain ⟨hg, hchan, -⟩ := id hp
  have hwritten : TouchesOnly [.port c, .relay, .drive] s r := hchan ▸ sharedWritten_touches hk w s
  have hilock : r.ilock = s.ilock := hwritten .ilock (by simp)
  have huptime : r.uptime = s.uptime := hwritten .uptime (by simp)
  have harb : r.arb = s.arb := hwritten .arb (by simp)
  have hev : r.ev = s.ev := hwritten .ev (by simp)
  have hpeer : r.view (peer c) = s.view (peer c) := hwritten (.view (peer c)) (by simp)
  have hrheld : ∀ d, heldBy r d p = heldBy s d p := fun d => by rw [heldBy, hilock]; rfl
  have hentries : entriesOf r c = entriesOf s c := by rw [entriesOf, hilock]; rfl
  have hguards : Guards r v := (fullSharedWrite_settled c p r).guards
  have huview : u.view (peer c) = v.view (peer c) := setView_view_peer _ _ _
  have hrelay : r.relay = { s.relay with
      gate := none, torn := s.relay.torn.filter (fun e => decide (e.addr ≠ g.addr)) } := by
    have hdropped : (dropped g w (endPortGate g.chan s)).relay = { s.relay with gate := none } := by
      rw [dropped_relay, endPortGate_eq]
      rfl
    show (mendSector g.addr (dropped g w (endPortGate g.chan s))).relay = _
    simp only [mendSector, setTorn, hdropped]
    rfl
  refine ⟨u, hexec, by rw [repositioned_view], ?gate, ?torn, ?frame, fun h => ?extended, fun h hpn => ?peerHolds,
    fun h hpn hroom => ?room, fun h hpn hst hplace => ?defers, fun old rest h hpn he hrest => ?overflow⟩
  case gate => rw [show u.relay = v.relay from rfl, hguards.gate, hrelay]
  case torn => rw [show u.relay = v.relay from rfl, hguards.torn, hrelay]
  case frame =>
    exact (hwritten.mono (by cases c <;> decide)).trans (((fullSharedWrite_moves c p r).frame.mono (by simp)).trans
      ((repositioned_touches c v).mono (by cases c <;> decide)))
  case extended =>
    have hextends := fullSharedWrite_extends (p := p) ((hrheld c).trans h)
    rw [hilock, huptime] at hextends
    exact hextends
  case peerHolds =>
    have hkept := fullSharedWrite_peerHolds ((hrheld c).trans h) ((hrheld (peer c)).trans hpn)
    rw [hilock, huptime, hentries] at hkept
    exact hkept
  case room =>
    obtain ⟨hlist, hchain, -⟩ := fullSharedWrite_joins ((hrheld c).trans h) ((hrheld (peer c)).trans hpn)
    rw [hentries, if_pos hroom, hilock, huptime] at hlist
    rw [huptime] at hchain
    refine ⟨hlist, hchain, fun hst hplace => ?_⟩
    have hv : v = withEntry c p (setChain c r.uptime r) :=
      fullSharedWrite_sparesPeer ((hrheld c).trans h) ((hrheld (peer c)).trans hpn) (by rw [hentries]; exact hroom)
        (by rw [hpeer]; exact hplace)
    refine ⟨?_, ?_⟩
    · rw [huview, hv]
      exact hpeer
    · show v.arb.request.get (peer c) = _
      rw [hv, ← harb]
      rfl
  case defers =>
    have hdefers := fullSharedWrite_defers ((hrheld c).trans h) ((hrheld (peer c)).trans hpn) (by rw [hpeer]; exact hst)
      (by rw [hpeer]; exact hplace)
    rw [hpeer] at hdefers
    rw [huview]
    exact hdefers
  case overflow =>
    have hfull : ¬(entriesOf r c).length < 4 := by simp [hentries, he, hrest]
    obtain ⟨hlist, hchain, hjoined⟩ := fullSharedWrite_joins ((hrheld c).trans h) ((hrheld (peer c)).trans hpn)
    obtain ⟨olist, ouptime, orecord⟩ := overflowOldest_removes (hentries.trans he)
    rw [if_neg hfull] at hlist hjoined
    rw [olist, ouptime, hilock, huptime] at hlist
    rw [huptime] at hchain
    refine ⟨hlist, hchain, fun hopen => ?_⟩
    unfold Recorded
    rw [show u.ev = v.ev from rfl, hjoined]
    exact orecord (by rw [Open, hev]; exact hopen)

end Sys2Proof.Machine
end

section
/-! What a step keeps of the torn sector list (R114, R116): `TornLaw` through every operation of the part. An update of
another block leaves the list as it stands, so the law passes through it by definition. -/

namespace Sys2Proof.Machine

/-! ## The list -/

theorem TornLaw.of_torn {s t : State} (h : TornLaw s) (ht : t.relay.torn = s.relay.torn) : TornLaw t := by
  unfold TornLaw
  rw [ht]
  exact h

theorem Decides.tornLaw {s t : State} (hd : Decides s t) (h : TornLaw s) : TornLaw t := h.of_torn hd.torn

theorem Guards.tornLaw {s t : State} (hg : Guards s t) (h : TornLaw s) : TornLaw t := h.of_torn hg.torn

theorem TouchesOnly.tornLaw {l : List Part} {s t : State} (ht : TouchesOnly l s t) (hl : Part.relay ∉ l)
    (h : TornLaw s) : TornLaw t := h.of_torn (congrArg Relay.torn (ht .relay hl))

theorem setTorn_tornLaw {l : List TornEntry} {s : State} (hl : l.length ≤ 4) (hn : (l.map (·.addr)).Nodup) :
    TornLaw (setTorn l s) := ⟨hl, hn⟩

theorem mendSector_tornLaw {x : Addr} {s : State} (h : TornLaw s) : TornLaw (mendSector x s) := by
  have hkept : (withoutAddr s.relay.torn x).Sublist s.relay.torn := List.filter_sublist
  exact setTorn_tornLaw (hkept.length_le.trans h.1) (h.2.sublist (hkept.map _))

/-- An address off the list and a place in it make room for its new entry (R114). -/
theorem addTorn_tornLaw {e : TornEntry} {s : State} (h : TornLaw s) : TornLaw (addTorn e s) := by
  obtain ⟨hlength, hnodup⟩ := h
  let kept := s.relay.torn.filter fun x => decide (x.addr ≠ e.addr)
  let room := if kept.length < 4 then kept else kept.tail
  have htorn : (addTorn e s).relay.torn = room ++ [e] := addTorn_torn e s
  have hkept : kept.Sublist s.relay.torn := List.filter_sublist
  have hkeptLength : kept.length ≤ 4 := hkept.length_le.trans hlength
  have hroom : room.Sublist kept ∧ room.length ≤ 3 := by
    unfold room
    split
    · exact ⟨.refl _, by omega⟩
    · exact ⟨List.tail_sublist _, by rw [List.length_tail]; omega⟩
  have hnew : e.addr ∉ room.map (·.addr) := by
    rw [List.mem_map]
    rintro ⟨x, hx, hsame⟩
    have hother := List.of_mem_filter (hroom.1.subset hx)
    exact absurd hsame (by simpa using hother)
  have hroomNodup : (room.map (·.addr)).Nodup := hnodup.sublist ((hroom.1.trans hkept).map _)
  refine ⟨?_, ?_⟩
  · rw [htorn, List.length_append, List.length_singleton]
    omega
  · rw [htorn, List.map_append, List.map_singleton, ← List.concat_eq_append]
    exact hroomNodup.concat hnew

section
variable {s : State} (h : TornLaw s)
include h

/-! ## Updates of other blocks -/

/-- The blocks other than the relay. -/
theorem others_tornLaw {views : Pair View} {ports : Pair Port} {m : MapStore} {a : Arbiter} {p : Positioner}
    {d : DrivePort} {i : Interlock} {b : Mailbox} {u : Watch} {ev : EventUnit} {warning : Bool} {free : Nat} :
    TornLaw { s with views := views, ports := ports, map := m, arb := a, pos := p, drive := d, ilock := i, mbox := b,
                     watch := u, ev := ev, warning := warning, free := free } := h

theorem setView_tornLaw {c : Chan} {v : View} : TornLaw (setView c v s) := h

theorem setPort_tornLaw {c : Chan} {p : Port} : TornLaw (setPort c p s) := h

theorem setWatchState_tornLaw {k : WatchState} : TornLaw (setWatchState k s) := h

theorem markStopped_tornLaw : TornLaw (markStopped s) := h

theorem copyStaged_tornLaw : TornLaw (copyStaged s) := h

theorem raiseFor_tornLaw {c : Chan} {e : ChanEvent} {p : PartAddr} {n : Nat} : TornLaw (raiseFor c e p n s) := h

theorem raiseSole_tornLaw {e : SoleEvent} {p : PartAddr} {n : Nat} : TornLaw (raiseSole e p n s) := h

/-! ## Entries and views -/

theorem giveCause_tornLaw {c : Chan} {k : Cause} : TornLaw (giveCause c k s) :=
  (giveCause_touches c k s).tornLaw (by simp) h

theorem idleToZero_tornLaw {c : Chan} : TornLaw (idleToZero c s) := by
  unfold idleToZero
  split <;> exact h

theorem dropDriveGates_tornLaw : TornLaw (dropDriveGates s) := (dropDriveGates_touches s).tornLaw (by decide) h

theorem removeEntries_tornLaw {test : Entry → Bool} : TornLaw (removeEntries test s) :=
  (removeEntries_settled test s).guards.tornLaw h

theorem removeChain_tornLaw {c : Chan} : TornLaw (removeChain c s) := removeEntries_tornLaw h

theorem leave_tornLaw {c : Chan} {old : ViewState} : TornLaw (leave c old s) := (leave_guards c old s).tornLaw h

theorem standbySeekError_tornLaw {c : Chan} : TornLaw (standbySeekError c s) :=
  leave_tornLaw (setView_tornLaw h)

theorem yieldTo_tornLaw {c : Chan} : TornLaw (yieldTo c s) := removeChain_tornLaw (raiseFor_tornLaw h)

theorem deferRequest_tornLaw {c : Chan} : TornLaw (deferRequest c s) := by
  let r := setDeferred c (s.view c).place
    (setView c { s.view c with st := .deferred, wait := (s.view c).waitAtRequest } s)
  have hr : TornLaw r := h
  unfold deferRequest
  simp only
  split <;> split
  · exact yieldTo_tornLaw ((withdrawRequest_decides c r).tornLaw hr)
  · exact yieldTo_tornLaw ((giveUp_decides c r).tornLaw hr)
  · exact yieldTo_tornLaw hr
  · exact (withdrawRequest_decides c r).tornLaw hr
  · exact (giveUp_decides c r).tornLaw hr
  · exact hr

theorem makeRequest_tornLaw {c : Chan} : TornLaw (makeRequest c s) := by
  unfold makeRequest
  split
  · exact deferRequest_tornLaw h
  · exact (letThrough_decides c _).tornLaw h

theorem enterFaulted_tornLaw {c : Chan} {k : FaultCause} : TornLaw (enterFaulted c k s) := by
  unfold enterFaulted
  simp only
  split
  · exact h
  · exact removeChain_tornLaw (leave_tornLaw (setView_tornLaw h))

theorem viewsUnusable_tornLaw : TornLaw (viewsUnusable s) := (viewsUnusable_lowered s).guards.tornLaw h

theorem viewsSpunDown_tornLaw : TornLaw (viewsSpunDown s) :=
  removeEntries_tornLaw (((viewUnusable_lowered .a s).trans (viewUnusable_lowered .b _)).guards.tornLaw h)

theorem viewsUsable_tornLaw : TornLaw (viewsUsable s) := (viewsUsable_touches s).tornLaw (by decide) h

/-! ## Aged entries and a map activation -/

theorem ageOut_tornLaw {test : Entry → Bool} : TornLaw (ageOut test s) := by
  unfold ageOut
  split
  · exact h
  · exact List.foldlRecOn _ _ (motive := TornLaw) h fun t ht e _ => removeEntries_tornLaw (s := raise _ _ _ _ t) ht

theorem endChain_tornLaw {c : Chan} : TornLaw (endChain c s) := by
  unfold endChain
  split
  · exact h
  · split
    · exact removeChain_tornLaw h
    · exact h

theorem pruneInterlocks_tornLaw : TornLaw (pruneInterlocks s) :=
  endChain_tornLaw (endChain_tornLaw (ageOut_tornLaw (removeEntries_tornLaw h)))

theorem viewAtActivation_tornLaw {c : Chan} : TornLaw (viewAtActivation c s) := by
  unfold viewAtActivation
  simp only
  split
  · exact h
  · exact h
  · split
    · split
      · exact h
      · exact makeRequest_tornLaw (setView_tornLaw h)
    · exact standbySeekError_tornLaw h
  · split
    · split
      · exact h
      · exact makeRequest_tornLaw (setView_tornLaw h)
    · exact standbySeekError_tornLaw h
  · split
    · split
      · exact h
      · exact leave_tornLaw (setView_tornLaw (setView_tornLaw h))
    · exact standbySeekError_tornLaw h
  · exact h

theorem viewsAtActivation_tornLaw : TornLaw (viewsAtActivation s) := by
  have hdrawn : TornLaw { s with free := s.free + 1 } := h
  unfold viewsAtActivation
  split
  · simp only
    split
    · exact viewAtActivation_tornLaw (viewAtActivation_tornLaw hdrawn)
    · exact viewAtActivation_tornLaw (viewAtActivation_tornLaw hdrawn)
  · exact viewAtActivation_tornLaw (viewAtActivation_tornLaw h)

theorem mailboxAtActivation_tornLaw {old : Option Nat} : TornLaw (mailboxAtActivation old s) := by
  unfold mailboxAtActivation
  split
  · exact h
  · exact (clearMailbox_touches s).tornLaw (by decide) h

/-! ## Gates -/

theorem passGate_tornLaw {c : Chan} {t : Target} {k : GateKind} {b : Bool} : TornLaw (passGate c t k b s) := h

theorem suppressWrite_tornLaw {c : Chan} {t : Target} {k : GateKind} {n : Nat} : TornLaw (suppressWrite c t k n s) := by
  unfold suppressWrite
  simp only
  split <;> exact enterFaulted_tornLaw (raiseFor_tornLaw h)

theorem handGate_tornLaw {c : Chan} {line : GateLine} {us : Nat} : TornLaw (handGate c line us s) := by
  unfold handGate
  split
  · exact h
  · split
    · exact h
    · simp only
      split
      · exact passGate_tornLaw h
      · split
        · exact suppressWrite_tornLaw h
        · exact passGate_tornLaw h

theorem judgeGate_tornLaw {g : GateRecord} {k : TearCause} : TornLaw (judgeGate g k s) := by
  have hadded : TornLaw (addTorn ⟨g.addr, .chan g.chan, k, s.uptime⟩ s) := addTorn_tornLaw h
  unfold judgeGate
  split
  · exact h
  · split
    · exact mendSector_tornLaw h
    · unfold tearWrite
      simp only
      split
      · exact giveCause_tornLaw (raiseFor_tornLaw hadded)
      · exact raiseFor_tornLaw hadded

theorem endGate_tornLaw {k : TearCause} {w : Carried} : TornLaw (endGate k w s) := by
  cases hg : s.relay.gate with
  | none =>
    simp only [endGate, hg]
    exact h
  | some g =>
    have hdropped : TornLaw (dropped g w s) := h.of_torn (by rw [dropped_relay])
    rw [endGate_eq hg]
    exact (reportMailbox_posts (g.carry w) _).settled.guards.tornLaw
      ((reportInterlock_settled (g.carry w) _).guards.tornLaw (judgeGate_tornLaw hdropped))

theorem endGatePositioned_tornLaw {k : TearCause} {w : Carried} : TornLaw (endGatePositioned k w s) := by
  unfold endGatePositioned
  split
  · exact h
  · next c _ =>
    have hidle : TornLaw (idleToZero c (endGate k w s)) := idleToZero_tornLaw (endGate_tornLaw h)
    unfold backToPositioned
    split
    · simp only
      split
      · exact (grantEnd_decides c .budget (setViewState c .positioned _)).tornLaw hidle
      · exact hidle
    · exact hidle

theorem reportGateEnd_tornLaw : TornLaw (reportGateEnd s) := (reportGateEnd_lowered s).guards.tornLaw h

theorem overrun_tornLaw {w : Carried} : TornLaw (overrun w s) := by
  have hended : TornLaw (endGate .gateOverrun w s) := endGate_tornLaw h
  unfold overrun
  split
  · exact h
  · exact enterFaulted_tornLaw (raiseFor_tornLaw hended)

theorem orderDuringGate_tornLaw {c : Chan} {n : Nat} {w : Carried} : TornLaw (orderDuringGate c n w s) := by
  have hcut : TornLaw (enterFaulted c .orderDuringGate (endGate .shortWrite w s)) :=
    enterFaulted_tornLaw (endGate_tornLaw h)
  unfold orderDuringGate
  split
  · exact h
  · exact raiseFor_tornLaw hcut

theorem cutInternal_tornLaw {k : TearCause} {w : Carried} : TornLaw (cutInternal k w s) := by
  unfold cutInternal
  split
  · next v _ =>
    have hcut : TornLaw (dropDriveGates (showInternalWrite v w s)) :=
      dropDriveGates_tornLaw ((showInternalWrite_touches v w s).tornLaw (by decide) h)
    simp only
    split
    · exact mendSector_tornLaw hcut
    · exact addTorn_tornLaw hcut
  · exact dropDriveGates_tornLaw h
  all_goals exact h

/-! ## Drive Watch -/

theorem commitFails_tornLaw {n : Nat} {p : PartAddr} : TornLaw (commitFails n p s) :=
  (commitFails_guards n p s).tornLaw h

theorem emptyQueue_tornLaw {k : TearCause} {w : Carried} : TornLaw (emptyQueue k w s) := by
  have hcut : TornLaw (cutInternal k w s) := cutInternal_tornLaw h
  have hfailed : TornLaw (removedCommitFails w (cutInternal k w s)) := by
    unfold removedCommitFails
    split
    · exact (runningCommitFails_guards true w _).tornLaw hcut
    · split
      · exact commitFails_tornLaw hcut
      · exact hcut
  exact hfailed

theorem halt_tornLaw : TornLaw (halt s) := ((haltArbiter_lowered s).trans (haltPositioner_lowered _)).guards.tornLaw h

theorem resume_tornLaw : TornLaw (resume s) := by
  unfold resume
  split
  · exact (decideGrant_decides _).tornLaw h
  · exact h

theorem enterRunning_tornLaw : TornLaw (enterRunning s) := by
  let r := refreshStaged { s with watch := { s.watch with st := .running, gap := 0 } }
  have hr : TornLaw r := h
  unfold enterRunning
  simp only
  split
  · exact viewsUsable_tornLaw hr
  · exact hr

theorem labelReadOutcome_tornLaw {r : ReadResult} : TornLaw (labelReadOutcome r s) := by
  have hcompared : TornLaw (compareCartridge r s) := by
    unfold compareCartridge
    split
    · exact giveCause_tornLaw (giveCause_tornLaw (raiseSole_tornLaw h))
    · exact h
  have hstored : TornLaw (storeLabel r (compareCartridge r s)) := (storeLabel_touches r _).tornLaw (by decide) hcompared
  unfold labelReadOutcome
  simp only
  split
  · exact enterRunning_tornLaw (others_tornLaw hstored)
  · exact hstored

theorem enterReadingLabel_tornLaw : TornLaw (enterReadingLabel s) := by
  let r : State := { s with watch := { s.watch with st := .readingLabel, gap := 0 } }
  have hr : TornLaw r := h
  unfold enterReadingLabel
  simp only
  split
  · exact labelReadOutcome_tornLaw hr
  · exact (internalArrives_decides _ _).tornLaw hr

theorem mapReadOutcome_tornLaw {r : ReadResult} : TornLaw (mapReadOutcome r s) := by
  have hstored : TornLaw (storeMap r s) := (storeMap_touches r s).tornLaw (by decide) h
  unfold mapReadOutcome
  simp only
  split
  · exact enterReadingLabel_tornLaw (others_tornLaw hstored)
  · exact hstored

theorem enterReadingMap_tornLaw : TornLaw (enterReadingMap s) := by
  let r : State := { s with watch := { s.watch with st := .readingMap, gap := 0 } }
  have hr : TornLaw r := h
  unfold enterReadingMap
  simp only
  split
  · exact mapReadOutcome_tornLaw hr
  · exact (internalArrives_decides _ _).tornLaw hr

theorem watchCalibrated_tornLaw : TornLaw (watchCalibrated s) := by
  have hresumed : TornLaw (resume s) := resume_tornLaw h
  unfold watchCalibrated nextStep
  split
  · split
    · exact enterReadingMap_tornLaw hresumed
    · split
      · exact enterReadingLabel_tornLaw hresumed
      · exact enterRunning_tornLaw hresumed
  · exact h

theorem enterCalibrating_tornLaw : TornLaw (enterCalibrating s) :=
  (askCalibration_decides (setWatchState .calibrating s)).tornLaw h

theorem enterSpunDown_tornLaw : TornLaw (enterSpunDown s) := by
  unfold enterSpunDown
  split <;> exact h

theorem spinDown_tornLaw {w : Carried} : TornLaw (spinDown w s) :=
  enterSpunDown_tornLaw (viewsSpunDown_tornLaw (halt_tornLaw (markStopped_tornLaw
    (emptyQueue_tornLaw (endGate_tornLaw h)))))

theorem holdHalt_tornLaw : TornLaw (holdHalt s) :=
  viewsUnusable_tornLaw (halt_tornLaw (s := { s with watch := { s.watch with writeEndWait := false } }) h)

theorem enterHold_tornLaw {w : Carried} : TornLaw (enterHold w s) := by
  have hwait : ∀ t, TornLaw t →
      TornLaw (if gateUp t then { t with watch := { t.watch with writeEndWait := true } } else holdHalt t) := by
    intro t ht
    split
    · exact ht
    · exact holdHalt_tornLaw ht
  unfold enterHold
  refine hwait _ ?_
  split
  · exact endGatePositioned_tornLaw (others_tornLaw h)
  · exact h

theorem fallInHold_tornLaw {w : Carried} : TornLaw (fallInHold w s) := by
  have hemptied : TornLaw (emptyQueue .driveDropped w (endGate .driveDropped w s)) :=
    emptyQueue_tornLaw (endGate_tornLaw h)
  unfold fallInHold
  refine viewsSpunDown_tornLaw (markStopped_tornLaw (others_tornLaw ?_))
  split
  · exact holdHalt_tornLaw hemptied
  · exact hemptied

theorem enterDriveFault_tornLaw : TornLaw (enterDriveFault s) :=
  viewsUnusable_tornLaw (halt_tornLaw (setWatchState_tornLaw
    (emptyQueue_tornLaw (endGate_tornLaw (others_tornLaw h)))))

theorem restartReading_tornLaw {w : Carried} : TornLaw (restartReading w s) :=
  enterCalibrating_tornLaw (halt_tornLaw (emptyQueue_tornLaw h))

theorem activate_tornLaw {imgs : CommitImages} : TornLaw (activate imgs s) := by
  have htranslated : TornLaw (viewsAtActivation (pruneInterlocks (installImages imgs s))) :=
    viewsAtActivation_tornLaw (pruneInterlocks_tornLaw (others_tornLaw h))
  have hcommitted : ∀ t, TornLaw t → ∀ n, TornLaw (raiseSole .mapCommitted .absent n
      (copyStaged (judgeRelease (giveCause .b .mapChanged (giveCause .a .mapChanged t))))) := fun t ht _ =>
    raiseSole_tornLaw (copyStaged_tornLaw ((judgeRelease_decides _).tornLaw (giveCause_tornLaw (giveCause_tornLaw ht))))
  unfold activate
  simp only
  split
  · exact viewsUsable_tornLaw (hcommitted _ (mailboxAtActivation_tornLaw htranslated) _)
  · exact hcommitted _ (mailboxAtActivation_tornLaw htranslated) _

/-! ## Positioner Control -/

theorem internalSeekFailed_tornLaw : TornLaw (internalSeekFailed s) := by
  unfold internalSeekFailed
  split
  · exact (internalEnds_decides _).tornLaw (mapReadOutcome_tornLaw h)
  · exact (internalEnds_decides _).tornLaw (labelReadOutcome_tornLaw h)
  · exact (internalEnds_decides _).tornLaw (commitFails_tornLaw h)
  · exact (internalEnds_decides _).tornLaw h

theorem claimFailed_tornLaw {c : Chan} : TornLaw (claimFailed c s) :=
  (claimEnd_decides c false _).tornLaw ((removeRequest_decides c (setView c _ s)).tornLaw h)

theorem arbiterFailed_tornLaw {n : Nat} : TornLaw (arbiterFailed n s) := by
  unfold arbiterFailed
  split
  · split
    · exact (claimEnd_decides _ _ s).tornLaw h
    · split
      · exact claimFailed_tornLaw h
      · exact (seekFor_decides _ s).tornLaw h
  · exact internalSeekFailed_tornLaw h
  all_goals exact h

theorem closingSucceeded_tornLaw {n : Nat} : TornLaw (closingSucceeded n s) := arbiterFailed_tornLaw (others_tornLaw h)

theorem seekReached_tornLaw {n : Nat} : TornLaw (seekReached n s) := (arbiterReached_decides n _).tornLaw h

theorem attemptFailed_tornLaw {o : SeekOutcome} : TornLaw (attemptFailed o s) := by
  have hraised : TornLaw (raiseAttempt o s) := by
    unfold raiseAttempt
    simp only
    split <;> split <;> exact h
  exact (startClearing_decides _ _).tornLaw (others_tornLaw hraised)

theorem contradictory_tornLaw {n : Nat} : TornLaw (contradictory n s) :=
  enterDriveFault_tornLaw (raiseSole_tornLaw h)

theorem stepFailed_tornLaw {b : Bool} {k : StepCause} : TornLaw (stepFailed b k s) :=
  enterDriveFault_tornLaw (raiseSole_tornLaw h)

theorem seekFromZero_tornLaw {n : Nat} : TornLaw (seekFromZero n s) := by
  unfold seekFromZero
  split
  · exact seekReached_tornLaw h
  · exact (attemptSeek_decides n s).tornLaw h

theorem takeHeld_tornLaw : TornLaw (takeHeld s) := by
  unfold takeHeld
  split
  · exact h
  · simp only
    split
    · exact (startClearing_decides _ _).tornLaw (others_tornLaw h)
    · exact seekFromZero_tornLaw (others_tornLaw h)

theorem recalibrated_tornLaw : TornLaw (recalibrated s) := by
  let r : State := { s with pos := { s.pos with cyl := some 0, st := .idle, ticks := none } }
  have hr : TornLaw r := h
  unfold recalibrated
  simp only
  split
  · exact watchCalibrated_tornLaw (others_tornLaw hr)
  · exact closingSucceeded_tornLaw hr
  · exact seekFromZero_tornLaw (others_tornLaw hr)
  · exact seekFromZero_tornLaw hr
  · exact seekFromZero_tornLaw hr
  · exact takeHeld_tornLaw hr

theorem faultWhileRunning_tornLaw {w : Carried} : TornLaw (faultWhileRunning w s) := by
  have hended : TornLaw (endGate .driveFault w s) := endGate_tornLaw h
  have hcut : TornLaw (cutAtFault w s) := by
    unfold cutAtFault
    split
    · simp only
      split <;> exact hended
    · exact h
  exact (recovery_guards _).tornLaw ((commitAtFault_guards w _).tornLaw (cutInternal_tornLaw hcut))

theorem positionLost_tornLaw {w : Carried} : TornLaw (positionLost w s) := by
  unfold positionLost
  split
  · exact h
  · split
    · exact faultWhileRunning_tornLaw (raiseSole_tornLaw h)
    · split
      · exact restartReading_tornLaw h
      · exact h

theorem orderFailed_tornLaw {o : DriveOrder} {w : Carried} : TornLaw (orderFailed o w s) := by
  unfold orderFailed
  split
  · split
    · exact attemptFailed_tornLaw h
    · exact h
  · split
    · exact stepFailed_tornLaw h
    · exact h
  · split
    · exact stepFailed_tornLaw h
    · exact h
  · unfold headWithdrawn
    split
    · exact faultWhileRunning_tornLaw (s := discardSteps s) h
    · split
      · exact restartReading_tornLaw h
      · exact h

theorem orderAcknowledged_tornLaw {o : DriveOrder} : TornLaw (orderAcknowledged o s) := by
  unfold orderAcknowledged
  split
  · exact h
  · simp only
    split
    · exact (startRecalibration_decides _ _).tornLaw (others_tornLaw h)
    · exact h
  · exact h
  · next sel issuer =>
    let r : State :=
      { s with pos := { s.pos with lastSel := some sel }, drive := setProt sel.vol s.drive.writeProtected s.drive }
    have hcleared : TornLaw (clearPending sel issuer r) := by
      unfold clearPending
      split <;> exact h
    simp only
    split
    · unfold headForTransfer
      split
      · split <;> exact hcleared
      · exact hcleared
    · exact hcleared

theorem onCylinderJudged_tornLaw : TornLaw (onCylinderJudged s) := by
  unfold onCylinderJudged
  split
  · split
    · split
      · exact contradictory_tornLaw h
      · exact seekReached_tornLaw h
    · exact h
  · split
    · split
      · exact contradictory_tornLaw h
      · exact recalibrated_tornLaw h
    · exact h
  all_goals exact h

theorem seekErrorJudged_tornLaw {w : Carried} : TornLaw (seekErrorJudged w s) := by
  unfold seekErrorJudged
  split
  · split
    · split
      · exact contradictory_tornLaw h
      · exact attemptFailed_tornLaw h
    · exact h
  · split
    · split
      · exact contradictory_tornLaw h
      · exact stepFailed_tornLaw h
    · exact h
  · exact positionLost_tornLaw h
  all_goals exact h

theorem raiseFaultLine_tornLaw : TornLaw (raiseFaultLine s) := by
  unfold raiseFaultLine
  split <;> exact h

theorem faultJudged_tornLaw {w : Carried} : TornLaw (faultJudged w s) := by
  unfold faultJudged
  split
  · split
    · exact attemptFailed_tornLaw h
    · exact h
  · split
    · exact stepFailed_tornLaw h
    · exact h
  · split
    · exact faultWhileRunning_tornLaw h
    · split
      · exact restartReading_tornLaw h
      · exact h
  all_goals exact h

/-! ## Orders, gates and presence at a port -/

theorem orderArrives_tornLaw {c : Chan} {b : Bool} {f : State → State} (hf : ∀ t, TornLaw t → TornLaw (f t)) :
    TornLaw (orderArrives c b f s) := by
  let r := setPort c { s.port c with strobe := true } s
  have heffect : TornLaw (f (idleToZero c r)) := hf _ (idleToZero_tornLaw (s := r) h)
  unfold orderArrives
  simp only
  split
  · exact h
  · split <;> exact heffect

theorem translateOrder_tornLaw {c : Chan} {n : Nat} : TornLaw (translateOrder c n s) := by
  unfold translateOrder
  simp only
  split
  · exact standbySeekError_tornLaw h
  · exact standbySeekError_tornLaw (raiseFor_tornLaw h)
  · split
    · exact h
    · exact makeRequest_tornLaw (setView_tornLaw h)

theorem cylinderEffect_tornLaw {c : Chan} {n : Nat} {w : Carried} : TornLaw (cylinderEffect c n w s) := by
  unfold cylinderEffect
  split
  · exact h
  · exact h
  · exact translateOrder_tornLaw h
  · exact translateOrder_tornLaw h
  · exact translateOrder_tornLaw h
  · exact translateOrder_tornLaw h
  · exact reportGateEnd_tornLaw (orderDuringGate_tornLaw h)
  · exact h

theorem headStays_tornLaw {c : Chan} : TornLaw (headStays c s) := by
  unfold headStays
  split
  · exact (headAtOrder_decides c s).tornLaw h
  · exact h

theorem headTranslates_tornLaw {c : Chan} {t : Target} : TornLaw (headTranslates c t s) := by
  have hkept : ∀ t', TornLaw (keepRequest c (setTarget c t' s)) := fun t' => by
    unfold keepRequest
    split <;> exact h
  unfold headTranslates
  simp only
  split
  · split
    · exact h
    · exact standbySeekError_tornLaw h
  · exact standbySeekError_tornLaw (raiseFor_tornLaw h)
  · split
    · exact headStays_tornLaw (hkept _)
    · split
      · exact h
      · exact makeRequest_tornLaw (setView_tornLaw h)

theorem takeHead_tornLaw {c : Chan} {x : Sel} : TornLaw (takeHead c x s) := by
  have hselected : TornLaw (setView c ((s.view c).select x) s) := h
  unfold takeHead
  simp only
  split
  · exact headStays_tornLaw hselected
  · split
    · exact headStays_tornLaw hselected
    · exact headTranslates_tornLaw hselected

theorem headEffect_tornLaw {c : Chan} {x : Sel} {w : Carried} : TornLaw (headEffect c x w s) := by
  unfold headEffect
  split
  · exact h
  · exact takeHead_tornLaw h
  · exact takeHead_tornLaw h
  · exact takeHead_tornLaw h
  · exact takeHead_tornLaw h
  · exact takeHead_tornLaw h
  · exact reportGateEnd_tornLaw (orderDuringGate_tornLaw h)
  · exact h

theorem recalibrateEffect_tornLaw {c : Chan} : TornLaw (recalibrateEffect c s) := by
  have hcleared : TornLaw (cylinderEffect c 0 .nothing (clearSeekError c s)) :=
    cylinderEffect_tornLaw (s := clearSeekError c s) h
  unfold recalibrateEffect
  split
  · exact h
  · exact hcleared
  · exact hcleared
  · exact hcleared
  · exact hcleared
  · exact hcleared
  · exact h
  · exact h

theorem faultClearEffect_tornLaw {c : Chan} : TornLaw (faultClearEffect c s) := by
  unfold faultClearEffect leaveFaulted
  split
  · simp only
    split
    · exact h
    · exact removeChain_tornLaw (setView_tornLaw h)
  · exact h

theorem gateEffect_tornLaw {c : Chan} {line : GateLine} {us : Nat} : TornLaw (gateEffect c line us s) := by
  have hraised : TornLaw (raiseNoPosition c line s) := h
  unfold gateEffect
  split
  · exact h
  · exact h
  · split
    · exact makeRequest_tornLaw hraised
    · exact hraised
  · exact hraised
  · exact hraised
  · exact handGate_tornLaw h
  · exact h
  · exact h

theorem dropGate_tornLaw {c : Chan} {w : Carried} : TornLaw (dropGate c w s) := by
  have hended : TornLaw (endPortGate c s) := (endPortGate_touches c s).tornLaw (by simp) h
  unfold dropGate
  split
  · exact reportGateEnd_tornLaw (endGatePositioned_tornLaw hended)
  · split
    · exact idleToZero_tornLaw hended
    · exact h

theorem losePresence_tornLaw {c : Chan} {w : Carried} : TornLaw (losePresence c w s) := by
  let r := cutAtLoss c w s
  have hcut : TornLaw r := by
    unfold r cutAtLoss
    split
    · exact endGate_tornLaw h
    · exact h
  have hdetached : TornLaw (detachView c r) := removeChain_tornLaw (leave_tornLaw (setView_tornLaw hcut))
  exact reportGateEnd_tornLaw (setPort_tornLaw (giveCause_tornLaw (raiseFor_tornLaw hdetached)))

/-! ## Internal transfers -/

theorem readOutcome_tornLaw {v : Vol} {r : ReadResult} : TornLaw (readOutcome v r s) := by
  cases v with
  | f => exact mapReadOutcome_tornLaw h
  | r => exact labelReadOutcome_tornLaw h

theorem writeDone_tornLaw {v : Vol} {imgs : CommitImages} : TornLaw (writeDone v imgs s) :=
  mendSector_tornLaw (dropDriveGates_tornLaw (others_tornLaw h))

theorem afterWrite_tornLaw {v : Vol} {imgs : CommitImages} : TornLaw (afterWrite v imgs s) := by
  unfold afterWrite
  split
  · split
    · exact reportGateEnd_tornLaw h
    · exact (beginSector_decides .r s).tornLaw h
  · exact reportGateEnd_tornLaw ((internalEnds_decides _).tornLaw (activate_tornLaw h))

/-! ## The maintenance line -/

theorem takeFrame_tornLaw {text : List (BitVec 8)} {act : State → State} (hact : ∀ t, TornLaw t → TornLaw (act t)) :
    TornLaw (takeFrame text act s) := by
  unfold takeFrame
  split
  · exact h
  · exact hact _ h

theorem selectPage_tornLaw {page : Nat} : TornLaw (selectPage page s) := by
  unfold selectPage
  split <;> exact h

theorem readWord_tornLaw {index : Nat} : TornLaw (readWord index s) := by
  unfold readWord
  split <;> exact h

theorem writeWord_tornLaw {index : Nat} {v : Word} : TornLaw (writeWord index v s) := by
  have hstored : TornLaw (storeWord s.line.page index v s) := by
    unfold storeWord
    split
    · exact h
    · split
      · exact h
      · split <;> exact h
  unfold writeWord
  simp only
  split
  · exact h
  · split
    · exact h
    · split
      · exact h
      · exact hstored

theorem takeFlags_tornLaw {index : Nat} : TornLaw (takeFlags index s) := by
  unfold takeFlags
  split <;> exact h

theorem commitFrame_tornLaw : TornLaw (commitFrame s) := by
  let r : State := { s with map := { s.map with commit := some (commitImages s.map) } }
  have hr : TornLaw r := h
  have htaken : TornLaw (takeCommit s) := by
    unfold takeCommit
    simp only
    split
    · exact commitFails_tornLaw hr
    · exact (internalArrives_decides .mapWrite r).tornLaw hr
  unfold commitFrame
  split
  · exact h
  · split
    · exact h
    · split
      · exact h
      · exact htaken

end

/-! ## Every command -/

/-- The torn sector list is empty in a part whose blocks have just been set (R116). -/
theorem initialised_tornLaw (lines : InputLines) (ev : EventUnit) (t : Stamp) (n : Word) (free : Nat)
    (pending : List Instr) : TornLaw (State.initialised lines ev t n free pending) := ⟨Nat.zero_le _, List.nodup_nil⟩

theorem exec_tornLaw {i : Instr} {s t : State} (h : TornLaw s) (e : exec i s = .next t) : TornLaw t := by
  cases i with
  | powerOn lines =>
    obtain rfl := Host.Outcome.next.inj e
    exact initialised_tornLaw lines .initial 0#32 0#16 s.free s.pending
  | pCommand page =>
    obtain rfl := Host.Outcome.next.inj e
    exact takeFrame_tornLaw h fun _ k => selectPage_tornLaw k
  | rCommand index text =>
    obtain rfl := Host.Outcome.next.inj e
    exact takeFrame_tornLaw h fun _ k => readWord_tornLaw k
  | rUptimeLow text =>
    obtain rfl := Host.Outcome.next.inj e
    exact takeFrame_tornLaw h fun _ k => readWord_tornLaw k
  | rUptimeHigh text =>
    obtain rfl := Host.Outcome.next.inj e
    exact takeFrame_tornLaw h fun _ k => readWord_tornLaw k
  | wEnableWord index value text =>
    obtain rfl := Host.Outcome.next.inj e
    exact takeFrame_tornLaw h fun _ k => writeWord_tornLaw k
  | wStagedImage index value text =>
    obtain rfl := Host.Outcome.next.inj e
    exact takeFrame_tornLaw h fun _ k => writeWord_tornLaw k
  | wNotWritable index value text =>
    obtain rfl := Host.Outcome.next.inj e
    exact takeFrame_tornLaw h fun _ k => writeWord_tornLaw k
  | tCommand index text =>
    obtain rfl := Host.Outcome.next.inj e
    exact takeFrame_tornLaw h fun _ k => takeFlags_tornLaw k
  | cCommand =>
    obtain rfl := Host.Outcome.next.inj e
    exact takeFrame_tornLaw h fun _ k => commitFrame_tornLaw k
  | uCommand =>
    obtain rfl := Host.Outcome.next.inj e
    exact takeFrame_tornLaw h fun _ k => k
  | kCommand =>
    obtain rfl := Host.Outcome.next.inj e
    exact takeFrame_tornLaw h fun u _ => setTorn_tornLaw (s := u) (Nat.zero_le _) List.nodup_nil
  | iCommand =>
    obtain rfl := Host.Outcome.next.inj e
    exact takeFrame_tornLaw h fun _ k => k
  | xCommand =>
    obtain rfl := Host.Outcome.next.inj e
    exact takeFrame_tornLaw h fun _ k => k
  | malformedFrame chars =>
    simp only [exec, execMalformedFrame] at e
    split at e <;> obtain rfl := Host.Outcome.next.inj e <;> exact h
  | replySent w =>
    simp only [exec, execReplySent] at e
    split at e
    · split at e <;> obtain rfl := Host.Outcome.next.inj e
      · exact initialised_tornLaw _ _ _ _ _ _
      · exact h
    · obtain rfl := Host.Outcome.next.inj e
      exact h
  | cylinderOrder c v w =>
    obtain rfl := Host.Outcome.next.inj e
    exact orderArrives_tornLaw h fun _ k => cylinderEffect_tornLaw k
  | headOrder c b w =>
    obtain rfl := Host.Outcome.next.inj e
    exact orderArrives_tornLaw h fun _ k => headEffect_tornLaw k
  | recalibrate c =>
    obtain rfl := Host.Outcome.next.inj e
    exact orderArrives_tornLaw h fun _ k => recalibrateEffect_tornLaw k
  | faultClear c =>
    obtain rfl := Host.Outcome.next.inj e
    exact orderArrives_tornLaw h fun _ k => faultClearEffect_tornLaw k
  | report c =>
    obtain rfl := Host.Outcome.next.inj e
    exact orderArrives_tornLaw h fun _ k => k
  | unknownFunctionCode c code =>
    obtain rfl := Host.Outcome.next.inj e
    exact orderArrives_tornLaw h fun _ k => k
  | orderNamingNoKind c bus =>
    obtain rfl := Host.Outcome.next.inj e
    exact orderArrives_tornLaw h fun _ k => k
  | orderStrobeFall c =>
    obtain rfl := Host.Outcome.next.inj e
    exact h
  | gateArrival c line us =>
    simp only [exec, execGateArrival] at e
    split at e <;> obtain rfl := Host.Outcome.next.inj e
    · exact h
    · exact gateEffect_tornLaw (idleToZero_tornLaw (setPort_tornLaw (setPort_tornLaw h)))
  | gateDrop c w =>
    obtain rfl := Host.Outcome.next.inj e
    exact dropGate_tornLaw h
  | unpassedGateDrop c line =>
    simp only [exec, execUnpassedGateDrop] at e
    split at e <;> obtain rfl := Host.Outcome.next.inj e
    · exact dropGate_tornLaw h
    · exact h
  | presenceLost c w =>
    simp only [exec, execPresenceLost] at e
    split at e <;> obtain rfl := Host.Outcome.next.inj e
    · exact h
    · exact losePresence_tornLaw (setPort_tornLaw h)
  | presentRise c =>
    obtain rfl := Host.Outcome.next.inj e
    exact h
  | attach c =>
    simp only [exec, execAttach] at e
    split at e <;> obtain rfl := Host.Outcome.next.inj e
    · exact giveCause_tornLaw (others_tornLaw h)
    · exact h
  | writeClockLost w =>
    simp only [exec, execWriteClockLost] at e
    split at e <;> obtain rfl := Host.Outcome.next.inj e
    · exact reportGateEnd_tornLaw (endGatePositioned_tornLaw h)
    · exact h
  | supplyWriteCutAtCheckWord w =>
    simp only [exec, execSupplyWriteCutAtCheckWord] at e
    split at e <;> obtain rfl := Host.Outcome.next.inj e
    · exact reportGateEnd_tornLaw (endGatePositioned_tornLaw h)
    · exact h
  | sectorStart k w =>
    obtain rfl := Host.Outcome.next.inj e
    have hstarted : TornLaw (overrun w (monitorStart k s)) :=
      overrun_tornLaw ((monitorStart_touches k s).tornLaw (by decide) h)
    have hrelayed : TornLaw (relayStart k .b (relayStart k .a (overrun w (monitorStart k s)))) :=
      ((relayStart_guards k .a _).trans (relayStart_guards k .b _)).tornLaw hstarted
    exact reportGateEnd_tornLaw ((transferStart_touches k _).tornLaw (by decide) hrelayed)
  | internalWriteGateRise =>
    simp only [exec, execInternalWriteGateRise] at e
    split at e <;> obtain rfl := Host.Outcome.next.inj e <;> exact h
  | checkError =>
    simp only [exec, execCheckError] at e
    split at e
    · split at e <;> obtain rfl := Host.Outcome.next.inj e <;> exact h
    all_goals
      obtain rfl := Host.Outcome.next.inj e
      exact h
  | internalReadEnd full header data =>
    simp only [exec, execInternalReadEnd] at e
    split at e <;> obtain rfl := Host.Outcome.next.inj e
    · exact reportGateEnd_tornLaw ((internalEnds_decides _).tornLaw (readOutcome_tornLaw (dropDriveGates_tornLaw h)))
    all_goals exact h
  | internalWriteEnd =>
    simp only [exec, execInternalWriteEnd] at e
    split at e <;> obtain rfl := Host.Outcome.next.inj e
    · exact afterWrite_tornLaw (writeDone_tornLaw h)
    · exact reportGateEnd_tornLaw ((internalEnds_decides _).tornLaw (dropDriveGates_tornLaw h))
    all_goals exact h
  | driveOrderAcknowledge =>
    simp only [exec, execDriveOrderAcknowledge] at e
    split at e <;> obtain rfl := Host.Outcome.next.inj e
    · exact orderAcknowledged_tornLaw (others_tornLaw h)
    · exact h
  | driveAcknowledgeFall =>
    obtain rfl := Host.Outcome.next.inj e
    exact (offerNext_decides _).tornLaw h
  | orderWithdrawn w =>
    simp only [exec, execOrderWithdrawn] at e
    split at e
    · split at e <;> obtain rfl := Host.Outcome.next.inj e
      · exact reportGateEnd_tornLaw ((offerNext_decides _).tornLaw (orderFailed_tornLaw (s := dropStrobe s) h))
      · exact h
    · obtain rfl := Host.Outcome.next.inj e
      exact h
  | onCylinderRise =>
    obtain rfl := Host.Outcome.next.inj e
    exact onCylinderJudged_tornLaw (others_tornLaw h)
  | seekErrorRise w =>
    obtain rfl := Host.Outcome.next.inj e
    exact seekErrorJudged_tornLaw (others_tornLaw h)
  | driveFaultLine w =>
    obtain rfl := Host.Outcome.next.inj e
    exact faultJudged_tornLaw (raiseFaultLine_tornLaw (others_tornLaw h))
  | onCylinderFall w =>
    simp only [exec, execOnCylinderFall] at e
    split at e <;> obtain rfl := Host.Outcome.next.inj e
    · exact positionLost_tornLaw (others_tornLaw h)
    · exact h
  | clearingStepSucceeded =>
    simp only [exec, execClearingStepSucceeded] at e
    split at e <;> obtain rfl := Host.Outcome.next.inj e
    · exact (startRecalibration_decides _ _).tornLaw (others_tornLaw h)
    · exact h
  | seekNoAnswer =>
    simp only [exec, execSeekNoAnswer] at e
    split at e <;> obtain rfl := Host.Outcome.next.inj e
    · exact attemptFailed_tornLaw h
    · exact h
  | clearingTimeLimit =>
    simp only [exec, execClearingTimeLimit] at e
    split at e <;> obtain rfl := Host.Outcome.next.inj e
    · exact stepFailed_tornLaw h
    · exact h
  | recalibrationTimeLimit =>
    simp only [exec, execRecalibrationTimeLimit] at e
    split at e <;> obtain rfl := Host.Outcome.next.inj e
    · exact stepFailed_tornLaw h
    · exact h
  | writeProtectedChange level =>
    simp only [exec, execWriteProtectedChange] at e
    split at e <;> obtain rfl := Host.Outcome.next.inj e <;> exact h
  | readyRise =>
    simp only [exec, execReadyRise] at e
    split at e <;> obtain rfl := Host.Outcome.next.inj e <;> exact h
  | readyFall w =>
    let r := readyLost { s with drive := { s.drive with ready := false } }
    have hr : TornLaw r := h
    simp only [exec, execReadyFall] at e
    split at e
    · obtain rfl := Host.Outcome.next.inj e
      exact h
    · split at e <;> obtain rfl := Host.Outcome.next.inj e
      · unfold acceptedFall
        split
        · exact hr
        · exact hr
        · exact spinDown_tornLaw hr
        · exact spinDown_tornLaw hr
        · exact spinDown_tornLaw hr
        · exact spinDown_tornLaw hr
        · exact fallInHold_tornLaw hr
        · exact spinDown_tornLaw hr
      · exact hr
  | readyAccepted =>
    simp only [exec, execReadyAccepted] at e
    split at e
    · split at e <;> obtain rfl := Host.Outcome.next.inj e
      · exact enterCalibrating_tornLaw (others_tornLaw h)
      · exact h
    · obtain rfl := Host.Outcome.next.inj e
      exact h
  | rotationLost w =>
    simp only [exec, execRotationLost] at e
    split at e
    · split at e
      · obtain rfl := Host.Outcome.next.inj e
        exact spinDown_tornLaw (others_tornLaw h)
      · split at e <;> obtain rfl := Host.Outcome.next.inj e
        · exact fallInHold_tornLaw (s := readyLost s) h
        · exact h
    · obtain rfl := Host.Outcome.next.inj e
      exact h
  | supplyWarning w =>
    simp only [exec, execSupplyWarning] at e
    split at e <;> obtain rfl := Host.Outcome.next.inj e
    · exact h
    · unfold acceptWarning
      simp only
      split
      · exact h
      · exact enterHold_tornLaw (raiseSole_tornLaw (others_tornLaw h))
  | supplyWarningInputClears =>
    obtain rfl := Host.Outcome.next.inj e
    exact h
  | supplyClearAccepted =>
    simp only [exec, execSupplyClearAccepted] at e
    split at e
    · split at e <;> obtain rfl := Host.Outcome.next.inj e
      · unfold leaveHold
        split
        · exact enterCalibrating_tornLaw (others_tornLaw h)
        · exact h
      · exact h
    · obtain rfl := Host.Outcome.next.inj e
      exact h
  | releaseInterval =>
    obtain rfl := Host.Outcome.next.inj e
    exact (judgeRelease_decides s).tornLaw h
  | budgetExpiry =>
    simp only [exec, execBudgetExpiry] at e
    split at e
    · split at e <;> obtain rfl := Host.Outcome.next.inj e
      · unfold budgetExpires
        split
        · exact h
        · exact (grantEnd_decides _ _ s).tornLaw h
      · exact h
    all_goals
      obtain rfl := Host.Outcome.next.inj e
      exact h
  | interlockChainEnd c =>
    obtain rfl := Host.Outcome.next.inj e
    exact endChain_tornLaw (ageOut_tornLaw h)
  | interlockAgedOut v n =>
    obtain rfl := Host.Outcome.next.inj e
    exact ageOut_tornLaw h

/-- Settles O7: an empty queue's tick leaves the list, and every command keeps the law. -/
theorem stepKeepsTornList : Obligations.StepKeepsTornList := by
  intro s t h hstep
  cases hp : s.pending with
  | nil =>
    rw [step_empty hp] at hstep
    obtain rfl := Host.Outcome.next.inj hstep
    exact (tick_touches s).tornLaw (by decide) h
  | cons i rest =>
    have hexec : exec i { s with pending := rest } = .next t := by
      rw [← hstep, step, hp]
    exact exec_tornLaw (s := { s with pending := rest }) h hexec

end Sys2Proof.Machine
end

section
/-! The law of the interlock list (R118, R119) through a removal of entries and through a full SHARED write. -/

namespace Sys2Proof.Machine

/-! ## The law -/

/-- The law for each channel. -/
theorem interlockLaw_iff (s : State) :
    InterlockLaw s ↔ (s.ilock.list.map Entry.place).Nodup
      ∧ ∀ c, (entriesOf s c).length ≤ 4 ∧ (s.ilock.chain.get c).isSome = !(entriesOf s c).isEmpty := by
  constructor
  · rintro ⟨hplaces, hlengthA, hlengthB, hchainA, hchainB⟩
    refine ⟨hplaces, fun c => ?_⟩
    cases c with
    | a => exact ⟨hlengthA, hchainA⟩
    | b => exact ⟨hlengthB, hchainB⟩
  · rintro ⟨hplaces, heach⟩
    exact ⟨hplaces, (heach .a).1, (heach .b).1, (heach .a).2, (heach .b).2⟩

theorem InterlockLaw.channel {s : State} (h : InterlockLaw s) (c : Chan) :
    (entriesOf s c).length ≤ 4 ∧ (s.ilock.chain.get c).isSome = !(entriesOf s c).isEmpty :=
  ((interlockLaw_iff s).1 h).2 c

/-- The law is about the list and the chain stamps alone. -/
theorem InterlockLaw.of_same {s t : State} (h : InterlockLaw s) (hlist : t.ilock.list = s.ilock.list)
    (hchain : t.ilock.chain = s.ilock.chain) : InterlockLaw t := by
  unfold InterlockLaw entriesOf at *
  rw [hlist, hchain]
  exact h

theorem Decides.interlockLaw {s t : State} (hd : Decides s t) (h : InterlockLaw s) : InterlockLaw t :=
  h.of_same hd.list hd.chain

/-! ## Entries removed -/

/-- The part without the entries that satisfy a test, nothing released yet (R125). -/
def withoutEntries (test : Entry → Bool) (s : State) : State := { s with ilock := s.ilock.remove test }

theorem withoutEntries_entriesOf (test : Entry → Bool) (s : State) (c : Chan) :
    entriesOf (withoutEntries test s) c = (entriesOf s c).filter fun e => !test e :=
  List.filter_comm ..

/-- A stamp stays exactly while its channel keeps an entry (R118). -/
theorem withoutEntries_chain (test : Entry → Bool) (s : State) (c : Chan) :
    (withoutEntries test s).ilock.chain.get c =
      if entriesOf (withoutEntries test s) c = [] then none else s.ilock.chain.get c := by
  have hkeep : (withoutEntries test s).ilock.chain.get c
      = keepChain (withoutEntries test s).ilock.list c (s.ilock.chain.get c) := by
    cases c <;> rfl
  have hany : (withoutEntries test s).ilock.list.any (fun e => decide (e.holder = c)) = true
      ↔ ¬entriesOf (withoutEntries test s) c = [] := by
    simp [entriesOf, List.any_eq_true]
  rw [hkeep, keepChain]
  simp only [hany, ite_not]

/-- A removal leaves fewer entries, and a stamp where its channel keeps one (R118). -/
theorem withoutEntries_interlockLaw {test : Entry → Bool} {s : State} (h : InterlockLaw s) :
    InterlockLaw (withoutEntries test s) := by
  rw [interlockLaw_iff] at h ⊢
  obtain ⟨hplaces, heach⟩ := h
  refine ⟨hplaces.sublist (List.filter_sublist.map _), fun c => ?_⟩
  obtain ⟨hlength, hchain⟩ := heach c
  have hentries := withoutEntries_entriesOf test s c
  refine ⟨?_, ?_⟩
  · rw [hentries]
    exact (List.length_filter_le _ _).trans hlength
  · rw [withoutEntries_chain]
    by_cases hnone : entriesOf (withoutEntries test s) c = []
    · rw [if_pos hnone, hnone]
      rfl
    · have hsome : entriesOf s c ≠ [] := fun hn => hnone (by rw [hentries, hn, List.filter_nil])
      rw [if_neg hnone, hchain, List.isEmpty_eq_false_iff.2 hsome, List.isEmpty_eq_false_iff.2 hnone]

/-- What a removal releases changes no entry and no stamp (R125). -/
theorem removeEntries_decides (test : Entry → Bool) (s : State) :
    Decides (withoutEntries test s) (removeEntries test s) := by
  unfold removeEntries
  simp only
  split <;> split
  · exact (releaseTest_decides .a _).trans (releaseTest_decides .b _)
  · exact releaseTest_decides .b _
  · exact releaseTest_decides .a _
  · exact .refl _

/-! ## A full SHARED write -/

/-- A channel with an entry may have its chain stamped (R118). -/
theorem setChain_interlockLaw {c : Chan} {t : Stamp} {s : State} (h : InterlockLaw s) (hsome : entriesOf s c ≠ []) :
    InterlockLaw (setChain c t s) := by
  rw [interlockLaw_iff] at h ⊢
  obtain ⟨hplaces, heach⟩ := h
  refine ⟨hplaces, fun d => ⟨(heach d).1, ?_⟩⟩
  show ((s.ilock.chain.set c (some t)).get d).isSome = !(entriesOf s d).isEmpty
  rw [Pair.get_set]
  split
  · next hd => simp [hd, hsome]
  · exact (heach d).2

/-- An entry extended keeps its holder and its place (R119). -/
theorem extendEntry_same (p : Place) (now : Stamp) (c : Chan) (e : Entry) :
    (extendEntry p now c e).holder = e.holder ∧ (extendEntry p now c e).place = e.place := by
  unfold extendEntry
  split <;> exact ⟨rfl, rfl⟩

/-- The part with the entry of a channel on a place extended (R119). -/
def withExtended (p : Place) (now : Stamp) (c : Chan) (s : State) : State :=
  { s with ilock := { s.ilock with list := s.ilock.list.map (extendEntry p now c) } }

theorem withExtended_entriesOf (p : Place) (now : Stamp) (c d : Chan) (s : State) :
    entriesOf (withExtended p now c s) d = (entriesOf s d).map (extendEntry p now c) := by
  simp only [withExtended, entriesOf, List.filter_map, Function.comp_def, (extendEntry_same p now c _).1]

theorem withExtended_interlockLaw {p : Place} {now : Stamp} {c : Chan} {s : State} (h : InterlockLaw s) :
    InterlockLaw (withExtended p now c s) := by
  rw [interlockLaw_iff] at h ⊢
  obtain ⟨hplaces, heach⟩ := h
  refine ⟨?_, fun d => ?_⟩
  · simpa only [withExtended, List.map_map, Function.comp_def, (extendEntry_same p now c _).2] using hplaces
  · rw [withExtended_entriesOf, List.length_map, List.isEmpty_map]
    exact heach d

/-- A place that neither channel holds stands in no entry. -/
theorem place_not_mem {c : Chan} {p : Place} {s : State} (hown : heldBy s c p = false)
    (hpeer : heldBy s (peer c) p = false) : p ∉ s.ilock.list.map Entry.place := by
  intro hmem
  obtain ⟨e, he, rfl⟩ := List.mem_map.1 hmem
  have hheld : heldBy s e.holder e.place = true :=
    List.any_eq_true.2 ⟨e, he, by simp [Entry.holds, Entry.place]⟩
  by_cases hc : e.holder = c
  · rw [hc, hown] at hheld
    exact nomatch hheld
  · rw [eq_peer_of_ne hc, hpeer] at hheld
    exact nomatch hheld

/-- A new entry in room, on a place that stands in no entry, with its channel stamped (R119). -/
theorem appendEntry_interlockLaw {c : Chan} {p : Place} {t : Stamp} {s : State} (h : InterlockLaw s)
    (hroom : (entriesOf s c).length < 4) (hp : p ∉ s.ilock.list.map Entry.place) :
    InterlockLaw (appendEntry c p (setChain c t s)) := by
  obtain ⟨hlist, hchain, -⟩ := appendEntry_entry c p (setChain c t s)
  have hentries : ∀ d, entriesOf (appendEntry c p (setChain c t s)) d
      = entriesOf s d ++ if d = c then [.fresh c p s.uptime] else [] := fun d => by
    have hlast : [Entry.fresh c p s.uptime].filter (fun e => decide (e.holder = d))
        = if d = c then [.fresh c p s.uptime] else [] := by
      by_cases hd : c = d
      · simp [Entry.fresh, hd]
      · simp [Entry.fresh, hd, Ne.symm hd]
    rw [entriesOf, hlist, List.filter_append, ← hlast]
    rfl
  rw [interlockLaw_iff] at h ⊢
  obtain ⟨hplaces, heach⟩ := h
  refine ⟨?_, fun d => ?_⟩
  · rw [hlist, List.map_append, List.map_singleton, ← List.concat_eq_append]
    exact hplaces.concat hp
  · obtain ⟨hlength, hstamp⟩ := heach d
    rw [hentries, hchain, setChain_ilock]
    show _ ∧ ((s.ilock.chain.set c (some t)).get d).isSome = _
    rw [Pair.get_set]
    split
    · next hd =>
      subst hd
      exact ⟨by simpa using Nat.succ_le_of_lt hroom, by simp⟩
    · simpa using ⟨hlength, hstamp⟩

/-- The oldest entry of a channel goes to make room (R119). -/
theorem overflowOldest_interlockLaw {c : Chan} {s : State} (h : InterlockLaw s) :
    InterlockLaw (overflowOldest c s) := by
  unfold overflowOldest
  split
  · exact h
  · exact (removeEntries_decides _ _).interlockLaw (withoutEntries_interlockLaw (s := raiseFor _ _ _ _ s) h)

theorem overflowOldest_room {c : Chan} {s : State} (h : InterlockLaw s) :
    (entriesOf (overflowOldest c s) c).length < 4 := by
  cases he : entriesOf s c with
  | nil => simp [overflowOldest, he]
  | cons old rest =>
    obtain ⟨hlist, -⟩ := overflowOldest_removes he
    obtain ⟨hlength, -⟩ := h.channel c
    rw [he] at hlength
    have hmem : old ∈ entriesOf s c := he ▸ List.mem_cons_self
    have hold : old.holder = c := by simpa using List.of_mem_filter hmem
    rw [entriesOf, hlist, List.filter_comm, ← entriesOf, he, List.filter_cons_of_neg (by simp [hold])]
    exact (Nat.lt_succ_of_le (List.length_filter_le _ _)).trans_le hlength

theorem overflowOldest_sublist (c : Chan) (s : State) : (overflowOldest c s).ilock.list.Sublist s.ilock.list := by
  cases he : entriesOf s c with
  | nil => simp [overflowOldest, he]
  | cons old rest =>
    rw [(overflowOldest_removes he).1]
    exact List.filter_sublist

theorem entriesOf_ne_nil_of_heldBy {c : Chan} {p : Place} {s : State} (h : heldBy s c p = true) :
    entriesOf s c ≠ [] := by
  obtain ⟨e, he, hholds⟩ := List.any_eq_true.1 h
  obtain ⟨hholder, -⟩ := Bool.and_eq_true_iff.1 hholds
  exact List.ne_nil_of_mem (List.mem_filter.2 ⟨he, hholder⟩)

/-- A full SHARED write, by who holds its place and by the room (R119, R120). -/
theorem fullSharedWrite_interlockLaw {c : Chan} {p : Place} {s : State} (h : InterlockLaw s) :
    InterlockLaw (fullSharedWrite c p s) := by
  by_cases hown : heldBy s c p = true
  · have hheld : entriesOf (withExtended p s.uptime c s) c ≠ [] := by
      rw [withExtended_entriesOf, ne_eq, List.map_eq_nil_iff]
      exact entriesOf_ne_nil_of_heldBy hown
    rw [fullSharedWrite, if_pos hown]
    exact setChain_interlockLaw (withExtended_interlockLaw h) hheld
  by_cases hpeer : heldBy s (peer c) p = true
  · rw [fullSharedWrite, if_neg hown, if_pos hpeer]
    split
    · exact h
    · next hsome => exact setChain_interlockLaw h fun hn => hsome (by rw [hn]; rfl)
  · rw [Bool.not_eq_true] at hown hpeer
    have hnew := place_not_mem hown hpeer
    rw [fullSharedWrite_new hown hpeer]
    split
    · next hroom => exact appendEntry_interlockLaw h hroom hnew
    · exact appendEntry_interlockLaw (overflowOldest_interlockLaw h) (overflowOldest_room h)
        fun hp => hnew (((overflowOldest_sublist c s).map _).subset hp)

end Sys2Proof.Machine
end

section
/-! What a step can do to the Interlock Unit (`Interlock.Course`), and the law of its list along it (R118 to R128). -/

namespace Sys2Proof.Machine

/-! ## What operations do to the Interlock Unit -/

/-- What the operations of the part do to the Interlock Unit, one after another: deferred requests change, entries are
removed with the stamps of the channels left without any, a full SHARED write is reported, the unit is emptied (R118,
R119, R121 to R128). -/
inductive Interlock.Course (u : Interlock) : Interlock → Prop where
  | start : Course u u
  | deferred {v : Interlock} (d : Pair (Option Place)) : Course u v → Course u { v with deferred := d }
  | removed {v : Interlock} (test : Entry → Bool) : Course u v → Course u (v.remove test)
  | written {s : State} (c : Chan) (p : Place) : Course u s.ilock → Course u (fullSharedWrite c p s).ilock
  | emptied : Course u .initial

/-- The law holds wherever the unit has come from one that obeys it. -/
theorem InterlockLaw.along {s t : State} (h : InterlockLaw s) (hc : s.ilock.Course t.ilock) : InterlockLaw t := by
  generalize hv : t.ilock = v at hc
  induction hc generalizing t with
  | start => exact h.of_same (by rw [hv]) (by rw [hv])
  | @deferred v d _ ih =>
    have hbefore : InterlockLaw { t with ilock := v } := ih rfl
    exact hbefore.of_same (by rw [hv]) (by rw [hv])
  | @removed v test _ ih =>
    have hbefore : InterlockLaw { t with ilock := v } := ih rfl
    exact (withoutEntries_interlockLaw hbefore).of_same (congrArg Interlock.list hv) (congrArg Interlock.chain hv)
  | written c p _ ih => exact (fullSharedWrite_interlockLaw (ih rfl)).of_same (by rw [hv]) (by rw [hv])
  | emptied =>
    refine (interlockLaw_iff t).2 ⟨by rw [hv]; exact List.nodup_nil, fun c => ?_⟩
    rw [entriesOf, hv]
    cases c <;> exact ⟨Nat.zero_le _, rfl⟩

/-- The Interlock Unit of a part has come from u: `Interlock.Course` as a law of parts. -/
def IlockFrom (u : Interlock) (s : State) : Prop := u.Course s.ilock

theorem Decides.ilockFrom {u : Interlock} {s t : State} (hd : Decides s t) (h : IlockFrom u s) : IlockFrom u t := by
  unfold IlockFrom
  rw [hd.ilock]
  exact .deferred _ h

theorem TouchesOnly.ilockFrom {l : List Part} {u : Interlock} {s t : State} (ht : TouchesOnly l s t)
    (hl : Part.ilock ∉ l) (h : IlockFrom u s) : IlockFrom u t := by
  have hsame : t.ilock = s.ilock := ht .ilock hl
  unfold IlockFrom
  rw [hsame]
  exact h

theorem leave_decides (c : Chan) (old : ViewState) (s : State) : Decides s (leave c old s) := by
  unfold leave
  split
  · exact withdrawRequest_decides c s
  · exact decides_setDeferred c none s
  · exact giveUp_decides c s
  · exact giveUp_decides c s
  all_goals exact .refl s

section
variable {u : Interlock} {s : State}

/-! ## Entries and views -/

theorem removeEntries_ilockFrom {test : Entry → Bool} (h : IlockFrom u s) : IlockFrom u (removeEntries test s) :=
  (removeEntries_decides test s).ilockFrom (.removed test h)

theorem removeChain_ilockFrom {c : Chan} (h : IlockFrom u s) : IlockFrom u (removeChain c s) :=
  removeEntries_ilockFrom h

theorem standbySeekError_ilockFrom {c : Chan} (h : IlockFrom u s) : IlockFrom u (standbySeekError c s) :=
  (leave_decides c (s.view c).st (setView c { (s.view c).seekFailed with st := .standby } s)).ilockFrom h

theorem deferRequest_ilockFrom {c : Chan} (h : IlockFrom u s) : IlockFrom u (deferRequest c s) := by
  let r := setDeferred c (s.view c).place
    (setView c { s.view c with st := .deferred, wait := (s.view c).waitAtRequest } s)
  have hr : IlockFrom u r := .deferred _ h
  have hleft : IlockFrom u (match (s.view c).st with
      | .requesting => withdrawRequest c r
      | .positioned => giveUp c r
      | _ => r) := by
    split
    · exact (withdrawRequest_decides c r).ilockFrom hr
    · exact (giveUp_decides c r).ilockFrom hr
    · exact hr
  unfold deferRequest
  simp only
  split
  · exact removeChain_ilockFrom hleft
  · exact hleft

theorem makeRequest_ilockFrom {c : Chan} (h : IlockFrom u s) : IlockFrom u (makeRequest c s) := by
  unfold makeRequest
  split
  · exact deferRequest_ilockFrom h
  · exact (letThrough_decides c _).ilockFrom h

theorem enterFaulted_ilockFrom {c : Chan} {k : FaultCause} (h : IlockFrom u s) :
    IlockFrom u (enterFaulted c k s) := by
  unfold enterFaulted
  simp only
  split
  · exact h
  · exact removeChain_ilockFrom ((leave_decides c _ (setView c _ s)).ilockFrom h)

theorem viewUnusable_ilockFrom {c : Chan} (h : IlockFrom u s) : IlockFrom u (viewUnusable c s) := by
  unfold viewUnusable
  split
  · exact h
  · exact .deferred _ h

theorem viewsUnusable_ilockFrom (h : IlockFrom u s) : IlockFrom u (viewsUnusable s) :=
  removeEntries_ilockFrom (viewUnusable_ilockFrom (viewUnusable_ilockFrom h))

theorem viewsSpunDown_ilockFrom (h : IlockFrom u s) : IlockFrom u (viewsSpunDown s) :=
  removeEntries_ilockFrom (viewUnusable_ilockFrom (viewUnusable_ilockFrom h))

theorem viewsUsable_ilockFrom (h : IlockFrom u s) : IlockFrom u (viewsUsable s) :=
  (viewsUsable_touches s).ilockFrom (by decide) h

theorem giveCause_ilockFrom {c : Chan} {k : Cause} (h : IlockFrom u s) : IlockFrom u (giveCause c k s) :=
  (giveCause_touches c k s).ilockFrom (by simp) h

theorem idleToZero_ilockFrom {c : Chan} (h : IlockFrom u s) : IlockFrom u (idleToZero c s) := by
  unfold idleToZero
  split <;> exact h

/-! ## Entries that age, and a map activation -/

theorem ageOut_ilockFrom {test : Entry → Bool} (h : IlockFrom u s) : IlockFrom u (ageOut test s) := by
  unfold ageOut
  split
  · exact h
  · exact List.foldlRecOn _ _ (motive := IlockFrom u) h fun t ht e _ => removeEntries_ilockFrom ht

theorem endChain_ilockFrom {c : Chan} (h : IlockFrom u s) : IlockFrom u (endChain c s) := by
  unfold endChain
  split
  · exact h
  · split
    · exact removeChain_ilockFrom h
    · exact h

theorem pruneInterlocks_ilockFrom (h : IlockFrom u s) : IlockFrom u (pruneInterlocks s) :=
  endChain_ilockFrom (endChain_ilockFrom (ageOut_ilockFrom (removeEntries_ilockFrom h)))

/-- A waiting view translated again: its target kept, a request made anew, or STANDBY (R38). -/
theorem retranslatedRequest_ilockFrom {c : Chan} {t : Target} (h : IlockFrom u s) :
    IlockFrom u (match translate s c (s.view c).sel.vol t.logical with
      | .mapped t' => if t'.physical = t.physical then setTarget c t' s else makeRequest c (setTarget c t' s)
      | _ => standbySeekError c s) := by
  split
  · split
    · exact h
    · exact makeRequest_ilockFrom h
  · exact standbySeekError_ilockFrom h

theorem viewAtActivation_ilockFrom {c : Chan} (h : IlockFrom u s) : IlockFrom u (viewAtActivation c s) := by
  unfold viewAtActivation
  simp only
  split
  · exact h
  · exact h
  · exact retranslatedRequest_ilockFrom h
  · exact retranslatedRequest_ilockFrom h
  · split
    · split
      · exact h
      · exact (leave_decides c .positioned _).ilockFrom h
    · exact standbySeekError_ilockFrom h
  · exact h

theorem viewsAtActivation_ilockFrom (h : IlockFrom u s) : IlockFrom u (viewsAtActivation s) := by
  have hdrawn : IlockFrom u ({ s with free := s.free + 1 } : State) := h
  unfold viewsAtActivation
  split
  · simp only
    split
    · exact viewAtActivation_ilockFrom (viewAtActivation_ilockFrom hdrawn)
    · exact viewAtActivation_ilockFrom (viewAtActivation_ilockFrom hdrawn)
  · exact viewAtActivation_ilockFrom (viewAtActivation_ilockFrom h)

theorem raiseSole_ilockFrom {e : SoleEvent} {p : PartAddr} {n : Nat} (h : IlockFrom u s) :
    IlockFrom u (raiseSole e p n s) := h

theorem copyStaged_ilockFrom (h : IlockFrom u s) : IlockFrom u (copyStaged s) := h

theorem activate_ilockFrom {imgs : CommitImages} (h : IlockFrom u s) : IlockFrom u (activate imgs s) := by
  have htranslated : IlockFrom u (viewsAtActivation (pruneInterlocks (installImages imgs s))) :=
    viewsAtActivation_ilockFrom (pruneInterlocks_ilockFrom h)
  have hannounced : ∀ t, IlockFrom u t → ∀ n, IlockFrom u (raiseSole .mapCommitted .absent n
      (copyStaged (judgeRelease (giveCause .b .mapChanged (giveCause .a .mapChanged t))))) := fun t ht _ =>
    raiseSole_ilockFrom (copyStaged_ilockFrom
      ((judgeRelease_decides _).ilockFrom (giveCause_ilockFrom (giveCause_ilockFrom ht))))
  have hmailbox := (mailboxAtActivation_kept s.map.mailboxCylinder _).1.ilockFrom (by decide) htranslated
  unfold activate
  simp only
  split
  · exact viewsUsable_ilockFrom (hannounced _ hmailbox _)
  · exact hannounced _ hmailbox _

/-! ## Gates -/

theorem handGate_ilockFrom {c : Chan} {line : GateLine} {n : Nat} (h : IlockFrom u s) :
    IlockFrom u (handGate c line n s) := by
  unfold handGate
  split
  · exact h
  · split
    · exact h
    · simp only
      split
      · exact h
      · split
        · unfold suppressWrite
          simp only
          split <;> exact enterFaulted_ilockFrom h
        · exact h

theorem endGate_ilockFrom {k : TearCause} {w : Carried} (h : IlockFrom u s) : IlockFrom u (endGate k w s) := by
  cases hg : s.relay.gate with
  | none =>
    simp only [endGate, hg]
    exact h
  | some g =>
    have hjudged : IlockFrom u (judgeGate (g.carry w) k (dropped g w s)) :=
      (judgeGate_marks (g.carry w) k _).frame.ilockFrom (by decide) ((dropped_touches g w s).ilockFrom (by simp) h)
    rw [endGate_eq hg]
    refine (reportMailbox_posts (g.carry w) _).frame.ilockFrom (by decide) ?_
    unfold reportInterlock
    split
    · exact .written _ _ hjudged
    · exact hjudged

theorem endGatePositioned_ilockFrom {k : TearCause} {w : Carried} (h : IlockFrom u s) :
    IlockFrom u (endGatePositioned k w s) := by
  unfold endGatePositioned
  split
  · exact h
  · next c _ =>
    have hidle : IlockFrom u (idleToZero c (endGate k w s)) := idleToZero_ilockFrom (endGate_ilockFrom h)
    unfold backToPositioned
    split
    · simp only
      split
      · exact (grantEnd_decides c .budget _).ilockFrom hidle
      · exact hidle
    · exact hidle

theorem overrun_ilockFrom {w : Carried} (h : IlockFrom u s) : IlockFrom u (overrun w s) := by
  unfold overrun
  split
  · exact h
  · exact enterFaulted_ilockFrom (endGate_ilockFrom (k := .gateOverrun) (w := w) h)

theorem orderDuringGate_ilockFrom {c : Chan} {n : Nat} {w : Carried} (h : IlockFrom u s) :
    IlockFrom u (orderDuringGate c n w s) := by
  unfold orderDuringGate
  split
  · exact h
  · exact enterFaulted_ilockFrom (endGate_ilockFrom h)

/-! ## Drive Watch -/

theorem halt_ilockFrom (h : IlockFrom u s) : IlockFrom u (halt s) := (halt_interrupted s).ilockFrom (by decide) h

theorem emptyQueue_ilockFrom {k : TearCause} {w : Carried} (h : IlockFrom u s) : IlockFrom u (emptyQueue k w s) :=
  (emptyQueue_interrupted k w s).ilockFrom (by decide) h

theorem holdHalt_ilockFrom (h : IlockFrom u s) : IlockFrom u (holdHalt s) :=
  viewsUnusable_ilockFrom (halt_ilockFrom (s := { s with watch := { s.watch with writeEndWait := false } }) h)

theorem reportGateEnd_ilockFrom (h : IlockFrom u s) : IlockFrom u (reportGateEnd s) := by
  unfold reportGateEnd
  split
  · exact holdHalt_ilockFrom h
  · exact h

theorem enterRunning_ilockFrom (h : IlockFrom u s) : IlockFrom u (enterRunning s) :=
  (enterRunning_entered s).1.ilockFrom (by decide) h

theorem labelReadOutcome_ilockFrom {r : ReadResult} (h : IlockFrom u s) : IlockFrom u (labelReadOutcome r s) := by
  have hcompared : IlockFrom u (compareCartridge r s) := (compareCartridge_compared r s).1.ilockFrom (by decide) h
  have hstored := (storeLabel_touches r _).ilockFrom (by decide) hcompared
  unfold labelReadOutcome
  simp only
  split
  · exact enterRunning_ilockFrom hstored
  · exact hstored

theorem enterReadingLabel_ilockFrom (h : IlockFrom u s) : IlockFrom u (enterReadingLabel s) := by
  unfold enterReadingLabel
  simp only
  split
  · exact labelReadOutcome_ilockFrom h
  · exact (internalArrives_decides _ _).ilockFrom h

theorem mapReadOutcome_ilockFrom {r : ReadResult} (h : IlockFrom u s) : IlockFrom u (mapReadOutcome r s) := by
  have hstored := (storeMap_touches r s).ilockFrom (by decide) h
  unfold mapReadOutcome
  simp only
  split
  · exact enterReadingLabel_ilockFrom hstored
  · exact hstored

theorem enterReadingMap_ilockFrom (h : IlockFrom u s) : IlockFrom u (enterReadingMap s) := by
  unfold enterReadingMap
  simp only
  split
  · exact mapReadOutcome_ilockFrom h
  · exact (internalArrives_decides _ _).ilockFrom h

theorem watchCalibrated_ilockFrom (h : IlockFrom u s) : IlockFrom u (watchCalibrated s) := by
  have hresumed : IlockFrom u (resume s) := by
    unfold resume
    split
    · exact (decideGrant_decides _).ilockFrom h
    · exact h
  unfold watchCalibrated nextStep
  split
  · split
    · exact enterReadingMap_ilockFrom hresumed
    · split
      · exact enterReadingLabel_ilockFrom hresumed
      · exact enterRunning_ilockFrom hresumed
  · exact h

theorem enterCalibrating_ilockFrom (h : IlockFrom u s) : IlockFrom u (enterCalibrating s) :=
  (askCalibration_decides (setWatchState .calibrating s)).ilockFrom h

theorem markStopped_ilockFrom (h : IlockFrom u s) : IlockFrom u (markStopped s) := h

theorem enterSpunDown_ilockFrom (h : IlockFrom u s) : IlockFrom u (enterSpunDown s) := by
  unfold enterSpunDown
  split <;> exact h

theorem spinDown_ilockFrom {w : Carried} (h : IlockFrom u s) : IlockFrom u (spinDown w s) :=
  enterSpunDown_ilockFrom (viewsSpunDown_ilockFrom (halt_ilockFrom (markStopped_ilockFrom
    (emptyQueue_ilockFrom (endGate_ilockFrom h)))))

theorem enterHold_ilockFrom {w : Carried} (h : IlockFrom u s) : IlockFrom u (enterHold w s) := by
  unfold enterHold
  simp only
  split <;> split
  · exact endGatePositioned_ilockFrom (s := { s with watch := _ }) h
  · exact holdHalt_ilockFrom (endGatePositioned_ilockFrom h)
  · exact h
  · exact holdHalt_ilockFrom h

theorem fallInHold_ilockFrom {w : Carried} (h : IlockFrom u s) : IlockFrom u (fallInHold w s) := by
  have hemptied : IlockFrom u (emptyQueue .driveDropped w (endGate .driveDropped w s)) :=
    emptyQueue_ilockFrom (endGate_ilockFrom h)
  have hstopped : ∀ t, IlockFrom u t →
      IlockFrom u (viewsSpunDown (markStopped { t with watch := { t.watch with spinOwed := true } })) := fun t ht =>
    viewsSpunDown_ilockFrom (markStopped_ilockFrom ht)
  unfold fallInHold
  refine hstopped _ ?_
  split
  · exact holdHalt_ilockFrom hemptied
  · exact hemptied

theorem acceptedFall_ilockFrom {w : Carried} (h : IlockFrom u s) : IlockFrom u (acceptedFall w s) := by
  unfold acceptedFall
  split
  · exact h
  · exact h
  · exact spinDown_ilockFrom h
  · exact spinDown_ilockFrom h
  · exact spinDown_ilockFrom h
  · exact spinDown_ilockFrom h
  · exact fallInHold_ilockFrom h
  · exact spinDown_ilockFrom h

theorem enterDriveFault_ilockFrom (h : IlockFrom u s) : IlockFrom u (enterDriveFault s) :=
  viewsUnusable_ilockFrom (halt_ilockFrom (s := setWatchState .driveFault _)
    (emptyQueue_ilockFrom (endGate_ilockFrom h)))

theorem restartReading_ilockFrom {w : Carried} (h : IlockFrom u s) : IlockFrom u (restartReading w s) :=
  enterCalibrating_ilockFrom (halt_ilockFrom (emptyQueue_ilockFrom h))

/-! ## Positioner Control -/

theorem commitFails_ilockFrom {n : Nat} {p : PartAddr} (h : IlockFrom u s) : IlockFrom u (commitFails n p s) :=
  (commitFails_interrupted n p s).ilockFrom (by decide) h

theorem internalSeekFailed_ilockFrom (h : IlockFrom u s) : IlockFrom u (internalSeekFailed s) := by
  unfold internalSeekFailed
  split
  · exact (internalEnds_decides _).ilockFrom (mapReadOutcome_ilockFrom h)
  · exact (internalEnds_decides _).ilockFrom (labelReadOutcome_ilockFrom h)
  · exact (internalEnds_decides _).ilockFrom (commitFails_ilockFrom h)
  · exact (internalEnds_decides _).ilockFrom h

theorem closingSucceeded_ilockFrom {n : Nat} (h : IlockFrom u s) : IlockFrom u (closingSucceeded n s) := by
  unfold closingSucceeded arbiterFailed
  split
  · split
    · exact (claimEnd_decides _ _ _).ilockFrom h
    · split
      · exact (claimEnd_decides _ false _).ilockFrom ((removeRequest_decides _ (setView _ _ _)).ilockFrom h)
      · exact (seekFor_decides _ _).ilockFrom h
  · exact internalSeekFailed_ilockFrom h
  all_goals exact h

theorem seekReached_ilockFrom {n : Nat} (h : IlockFrom u s) : IlockFrom u (seekReached n s) :=
  (arbiterReached_decides n _).ilockFrom h

theorem attemptFailed_ilockFrom {o : SeekOutcome} (h : IlockFrom u s) : IlockFrom u (attemptFailed o s) := by
  have hraised : IlockFrom u (raiseAttempt o s) := by
    unfold raiseAttempt
    simp only
    split <;> split <;> exact h
  exact (startClearing_decides _ _).ilockFrom hraised

theorem contradictory_ilockFrom {n : Nat} (h : IlockFrom u s) : IlockFrom u (contradictory n s) :=
  enterDriveFault_ilockFrom h

theorem stepFailed_ilockFrom {b : Bool} {k : StepCause} (h : IlockFrom u s) : IlockFrom u (stepFailed b k s) :=
  enterDriveFault_ilockFrom h

theorem seekFromZero_ilockFrom {n : Nat} (h : IlockFrom u s) : IlockFrom u (seekFromZero n s) := by
  unfold seekFromZero
  split
  · exact seekReached_ilockFrom h
  · exact (attemptSeek_decides n s).ilockFrom h

theorem takeHeld_ilockFrom (h : IlockFrom u s) : IlockFrom u (takeHeld s) := by
  unfold takeHeld
  split
  · exact h
  · simp only
    split
    · exact (startClearing_decides _ _).ilockFrom h
    · exact seekFromZero_ilockFrom h

theorem recalibrated_ilockFrom (h : IlockFrom u s) : IlockFrom u (recalibrated s) := by
  unfold recalibrated
  simp only
  split
  · exact watchCalibrated_ilockFrom h
  · exact closingSucceeded_ilockFrom h
  · exact seekFromZero_ilockFrom h
  · exact seekFromZero_ilockFrom h
  · exact seekFromZero_ilockFrom h
  · exact takeHeld_ilockFrom h

theorem faultWhileRunning_ilockFrom {w : Carried} (h : IlockFrom u s) : IlockFrom u (faultWhileRunning w s) := by
  have hcut : IlockFrom u (cutAtFault w s) := by
    unfold cutAtFault
    split
    · simp only
      split <;> exact endGate_ilockFrom (k := .driveFault) (w := w) h
    · exact h
  have hfailed : IlockFrom u (commitAtFault w (cutInternal .driveFault w (cutAtFault w s))) := by
    have hinternal := (cutInternal_interrupted .driveFault w _).ilockFrom (by decide) hcut
    unfold commitAtFault
    split
    · exact (runningCommitFails_interrupted false w _).ilockFrom (by decide) hinternal
    · exact hinternal
  exact ((beginRecovery_decides _).trans (endAtFault_decides _)).ilockFrom hfailed

theorem positionLost_ilockFrom {w : Carried} (h : IlockFrom u s) : IlockFrom u (positionLost w s) := by
  unfold positionLost
  split
  · exact h
  · split
    · exact faultWhileRunning_ilockFrom h
    · split
      · exact restartReading_ilockFrom h
      · exact h

theorem orderFailed_ilockFrom {o : DriveOrder} {w : Carried} (h : IlockFrom u s) :
    IlockFrom u (orderFailed o w s) := by
  unfold orderFailed
  split
  · split
    · exact attemptFailed_ilockFrom h
    · exact h
  · split
    · exact stepFailed_ilockFrom h
    · exact h
  · split
    · exact stepFailed_ilockFrom h
    · exact h
  · unfold headWithdrawn
    split
    · exact faultWhileRunning_ilockFrom h
    · split
      · exact restartReading_ilockFrom h
      · exact h

theorem orderAcknowledged_ilockFrom {o : DriveOrder} (h : IlockFrom u s) : IlockFrom u (orderAcknowledged o s) := by
  unfold orderAcknowledged
  split
  · exact h
  · simp only
    split
    · exact (startRecalibration_decides _ _).ilockFrom h
    · exact h
  · exact h
  · next sel issuer =>
    have hcleared : ∀ t : State, IlockFrom u t → IlockFrom u (clearPending sel issuer t) := fun t ht => by
      unfold clearPending
      split <;> exact ht
    have hhead : ∀ t : State, IlockFrom u t → IlockFrom u (headForTransfer sel t) := fun t ht => by
      unfold headForTransfer
      split
      · split <;> exact ht
      · exact ht
    simp only
    split
    · exact hhead _ (hcleared _ h)
    · exact hcleared _ h

theorem onCylinderJudged_ilockFrom (h : IlockFrom u s) : IlockFrom u (onCylinderJudged s) := by
  unfold onCylinderJudged
  split
  · split
    · split
      · exact contradictory_ilockFrom h
      · exact seekReached_ilockFrom h
    · exact h
  · split
    · split
      · exact contradictory_ilockFrom h
      · exact recalibrated_ilockFrom h
    · exact h
  all_goals exact h

theorem seekErrorJudged_ilockFrom {w : Carried} (h : IlockFrom u s) : IlockFrom u (seekErrorJudged w s) := by
  unfold seekErrorJudged
  split
  · split
    · split
      · exact contradictory_ilockFrom h
      · exact attemptFailed_ilockFrom h
    · exact h
  · split
    · split
      · exact contradictory_ilockFrom h
      · exact stepFailed_ilockFrom h
    · exact h
  · exact positionLost_ilockFrom h
  all_goals exact h

theorem faultJudged_ilockFrom {w : Carried} (h : IlockFrom u s) : IlockFrom u (faultJudged w (raiseFaultLine s)) := by
  have hraised : IlockFrom u (raiseFaultLine s) := by
    unfold raiseFaultLine
    split <;> exact h
  unfold faultJudged
  split
  · split
    · exact attemptFailed_ilockFrom hraised
    · exact hraised
  · split
    · exact stepFailed_ilockFrom hraised
    · exact hraised
  · split
    · exact faultWhileRunning_ilockFrom hraised
    · split
      · exact restartReading_ilockFrom hraised
      · exact hraised
  all_goals exact hraised

/-! ## Orders, gates and presence at a port -/

theorem orderArrives_ilockFrom {c : Chan} {b : Bool} {f : State → State}
    (hf : ∀ t, IlockFrom u t → IlockFrom u (f t)) (h : IlockFrom u s) : IlockFrom u (orderArrives c b f s) := by
  have heffect : IlockFrom u (f (idleToZero c (setPort c { s.port c with strobe := true } s))) :=
    hf _ (idleToZero_ilockFrom (s := setPort c _ s) h)
  unfold orderArrives
  simp only
  split
  · exact h
  · split <;> exact heffect

theorem translateOrder_ilockFrom {c : Chan} {n : Nat} (h : IlockFrom u s) : IlockFrom u (translateOrder c n s) := by
  unfold translateOrder
  simp only
  split
  · exact standbySeekError_ilockFrom h
  · exact standbySeekError_ilockFrom (s := raiseUnmapped c n s) h
  · split
    · exact h
    · exact makeRequest_ilockFrom h

theorem cylinderEffect_ilockFrom {c : Chan} {n : Nat} {w : Carried} (h : IlockFrom u s) :
    IlockFrom u (cylinderEffect c n w s) := by
  unfold cylinderEffect
  split
  · exact h
  · exact h
  · exact translateOrder_ilockFrom h
  · exact translateOrder_ilockFrom h
  · exact translateOrder_ilockFrom h
  · exact translateOrder_ilockFrom h
  · exact reportGateEnd_ilockFrom (orderDuringGate_ilockFrom h)
  · exact h

theorem headStays_ilockFrom {c : Chan} (h : IlockFrom u s) : IlockFrom u (headStays c s) := by
  unfold headStays
  split
  · exact (headAtOrder_decides c s).ilockFrom h
  · exact h

theorem headTranslates_ilockFrom {c : Chan} {t : Target} (h : IlockFrom u s) :
    IlockFrom u (headTranslates c t s) := by
  have hkept : ∀ t', IlockFrom u (keepRequest c (setTarget c t' s)) := fun t' => by
    unfold keepRequest
    split <;> exact h
  unfold headTranslates
  simp only
  split
  · split
    · exact h
    · exact standbySeekError_ilockFrom h
  · exact standbySeekError_ilockFrom (s := raiseUnmapped c t.logical s) h
  · split
    · exact headStays_ilockFrom (hkept _)
    · split
      · exact h
      · exact makeRequest_ilockFrom h

theorem takeHead_ilockFrom {c : Chan} {x : Sel} (h : IlockFrom u s) : IlockFrom u (takeHead c x s) := by
  unfold takeHead
  simp only
  split
  · exact headStays_ilockFrom h
  · split
    · exact headStays_ilockFrom h
    · exact headTranslates_ilockFrom h

theorem headEffect_ilockFrom {c : Chan} {x : Sel} {w : Carried} (h : IlockFrom u s) :
    IlockFrom u (headEffect c x w s) := by
  unfold headEffect
  split
  · exact h
  · exact takeHead_ilockFrom h
  · exact takeHead_ilockFrom h
  · exact takeHead_ilockFrom h
  · exact takeHead_ilockFrom h
  · exact takeHead_ilockFrom h
  · exact reportGateEnd_ilockFrom (orderDuringGate_ilockFrom h)
  · exact h

theorem recalibrateEffect_ilockFrom {c : Chan} (h : IlockFrom u s) : IlockFrom u (recalibrateEffect c s) := by
  have hcleared : IlockFrom u (cylinderEffect c 0 .nothing (clearSeekError c s)) := cylinderEffect_ilockFrom h
  unfold recalibrateEffect
  split
  · exact h
  · exact hcleared
  · exact hcleared
  · exact hcleared
  · exact hcleared
  · exact hcleared
  · exact h
  · exact h

theorem faultClearEffect_ilockFrom {c : Chan} (h : IlockFrom u s) : IlockFrom u (faultClearEffect c s) := by
  unfold faultClearEffect leaveFaulted
  split
  · simp only
    split
    · exact h
    · exact removeChain_ilockFrom h
  · exact h

theorem gateEffect_ilockFrom {c : Chan} {line : GateLine} {n : Nat} (h : IlockFrom u s) :
    IlockFrom u (gateEffect c line n s) := by
  unfold gateEffect
  split
  · exact h
  · exact h
  · split
    · exact makeRequest_ilockFrom h
    · exact h
  · exact h
  · exact h
  · exact handGate_ilockFrom h
  · exact h
  · exact h

theorem dropGate_ilockFrom {c : Chan} {w : Carried} (h : IlockFrom u s) : IlockFrom u (dropGate c w s) := by
  have hended : IlockFrom u (endPortGate c s) := (endPortGate_touches c s).ilockFrom (by simp) h
  unfold dropGate
  split
  · exact reportGateEnd_ilockFrom (endGatePositioned_ilockFrom hended)
  · split
    · exact idleToZero_ilockFrom hended
    · exact h

theorem losePresence_ilockFrom {c : Chan} {w : Carried} (h : IlockFrom u s) : IlockFrom u (losePresence c w s) := by
  have hcut : IlockFrom u (cutAtLoss c w s) := by
    unfold cutAtLoss
    split
    · exact endGate_ilockFrom h
    · exact h
  have hdetached : IlockFrom u (detachView c (cutAtLoss c w s)) :=
    removeChain_ilockFrom ((leave_decides c _ (setView c _ _)).ilockFrom hcut)
  exact reportGateEnd_ilockFrom (giveCause_ilockFrom (s := raiseFor _ _ _ _ _) hdetached)

/-! ## Internal transfers and the maintenance line -/

theorem readOutcome_ilockFrom {v : Vol} {r : ReadResult} (h : IlockFrom u s) : IlockFrom u (readOutcome v r s) := by
  cases v with
  | f => exact mapReadOutcome_ilockFrom h
  | r => exact labelReadOutcome_ilockFrom h

theorem afterWrite_ilockFrom {v : Vol} {imgs : CommitImages} (h : IlockFrom u s) :
    IlockFrom u (afterWrite v imgs s) := by
  unfold afterWrite
  split
  · split
    · exact reportGateEnd_ilockFrom h
    · exact (beginSector_decides .r s).ilockFrom h
  · exact reportGateEnd_ilockFrom ((internalEnds_decides _).ilockFrom (activate_ilockFrom h))

theorem takeFrame_ilockFrom {text : List (BitVec 8)} {act : State → State}
    (hact : ∀ t, IlockFrom u t → IlockFrom u (act t)) (h : IlockFrom u s) : IlockFrom u (takeFrame text act s) := by
  unfold takeFrame
  split
  · exact h
  · exact hact _ h

theorem selectPage_ilockFrom {page : Nat} (h : IlockFrom u s) : IlockFrom u (selectPage page s) := by
  unfold selectPage
  split <;> exact h

theorem readWord_ilockFrom {index : Nat} (h : IlockFrom u s) : IlockFrom u (readWord index s) := by
  unfold readWord
  split <;> exact h

theorem writeWord_ilockFrom {index : Nat} {v : Word} (h : IlockFrom u s) : IlockFrom u (writeWord index v s) := by
  have hstored : IlockFrom u (storeWord s.line.page index v s) := by
    unfold storeWord
    split
    · exact h
    · split
      · exact h
      · split <;> exact h
  unfold writeWord
  simp only
  split
  · exact h
  · split
    · exact h
    · split
      · exact h
      · exact hstored

theorem takeFlags_ilockFrom {index : Nat} (h : IlockFrom u s) : IlockFrom u (takeFlags index s) := by
  unfold takeFlags
  split <;> exact h

theorem commitFrame_ilockFrom (h : IlockFrom u s) : IlockFrom u (commitFrame s) := by
  have htaken : IlockFrom u (takeCommit s) := by
    unfold takeCommit
    simp only
    split
    · exact commitFails_ilockFrom h
    · exact (internalArrives_decides .mapWrite _).ilockFrom h
  unfold commitFrame
  split
  · exact h
  · split
    · exact h
    · split
      · exact h
      · exact htaken

end

/-! ## Every command -/

/-- What every command does to the Interlock Unit. -/
theorem exec_ilockFrom {i : Instr} {u : Interlock} {s t : State} (h : IlockFrom u s) (e : exec i s = .next t) :
    IlockFrom u t := by
  cases i with
  | powerOn lines =>
    obtain rfl := Host.Outcome.next.inj e
    exact .emptied
  | pCommand page =>
    obtain rfl := Host.Outcome.next.inj e
    exact takeFrame_ilockFrom (fun _ k => selectPage_ilockFrom k) h
  | rCommand | rUptimeLow | rUptimeHigh =>
    obtain rfl := Host.Outcome.next.inj e
    exact takeFrame_ilockFrom (fun _ k => readWord_ilockFrom k) h
  | wEnableWord | wStagedImage | wNotWritable =>
    obtain rfl := Host.Outcome.next.inj e
    exact takeFrame_ilockFrom (fun _ k => writeWord_ilockFrom k) h
  | tCommand index text =>
    obtain rfl := Host.Outcome.next.inj e
    exact takeFrame_ilockFrom (fun _ k => takeFlags_ilockFrom k) h
  | cCommand =>
    obtain rfl := Host.Outcome.next.inj e
    exact takeFrame_ilockFrom (fun _ k => commitFrame_ilockFrom k) h
  | uCommand | kCommand | iCommand | xCommand =>
    obtain rfl := Host.Outcome.next.inj e
    exact takeFrame_ilockFrom (fun _ k => k) h
  | malformedFrame chars =>
    simp only [exec, execMalformedFrame] at e
    split at e <;> obtain rfl := Host.Outcome.next.inj e <;> exact h
  | replySent w =>
    simp only [exec, execReplySent] at e
    split at e
    · split at e <;> obtain rfl := Host.Outcome.next.inj e
      · exact .emptied
      · exact h
    · obtain rfl := Host.Outcome.next.inj e
      exact h
  | cylinderOrder c v w =>
    obtain rfl := Host.Outcome.next.inj e
    exact orderArrives_ilockFrom (fun _ k => cylinderEffect_ilockFrom k) h
  | headOrder c b w =>
    obtain rfl := Host.Outcome.next.inj e
    exact orderArrives_ilockFrom (fun _ k => headEffect_ilockFrom k) h
  | recalibrate c =>
    obtain rfl := Host.Outcome.next.inj e
    exact orderArrives_ilockFrom (fun _ k => recalibrateEffect_ilockFrom k) h
  | faultClear c =>
    obtain rfl := Host.Outcome.next.inj e
    exact orderArrives_ilockFrom (fun _ k => faultClearEffect_ilockFrom k) h
  | report | unknownFunctionCode | orderNamingNoKind =>
    obtain rfl := Host.Outcome.next.inj e
    exact orderArrives_ilockFrom (fun _ k => k) h
  | orderStrobeFall | presentRise | supplyWarningInputClears =>
    obtain rfl := Host.Outcome.next.inj e
    exact h
  | gateArrival c line n =>
    simp only [exec, execGateArrival] at e
    split at e <;> obtain rfl := Host.Outcome.next.inj e
    · exact h
    · exact gateEffect_ilockFrom (idleToZero_ilockFrom h)
  | gateDrop c w =>
    obtain rfl := Host.Outcome.next.inj e
    exact dropGate_ilockFrom h
  | unpassedGateDrop c line =>
    simp only [exec, execUnpassedGateDrop] at e
    split at e <;> obtain rfl := Host.Outcome.next.inj e
    · exact dropGate_ilockFrom h
    · exact h
  | presenceLost c w =>
    simp only [exec, execPresenceLost] at e
    split at e <;> obtain rfl := Host.Outcome.next.inj e
    · exact h
    · exact losePresence_ilockFrom h
  | attach c =>
    simp only [exec, execAttach] at e
    split at e <;> obtain rfl := Host.Outcome.next.inj e
    · exact giveCause_ilockFrom h
    · exact h
  | writeClockLost | supplyWriteCutAtCheckWord =>
    simp only [exec, execWriteClockLost, execSupplyWriteCutAtCheckWord] at e
    split at e <;> obtain rfl := Host.Outcome.next.inj e
    · exact reportGateEnd_ilockFrom (endGatePositioned_ilockFrom h)
    · exact h
  | sectorStart k w =>
    obtain rfl := Host.Outcome.next.inj e
    have hcut : IlockFrom u (overrun w (monitorStart k s)) :=
      overrun_ilockFrom ((monitorStart_touches k s).ilockFrom (by decide) h)
    have hrelayed : IlockFrom u (relayStart k .b (relayStart k .a (overrun w (monitorStart k s)))) :=
      (relayStart_touches k .b _).ilockFrom (by decide) ((relayStart_touches k .a _).ilockFrom (by decide) hcut)
    exact reportGateEnd_ilockFrom ((transferStart_touches k _).ilockFrom (by decide) hrelayed)
  | internalWriteGateRise =>
    simp only [exec, execInternalWriteGateRise] at e
    split at e <;> obtain rfl := Host.Outcome.next.inj e <;> exact h
  | checkError =>
    simp only [exec, execCheckError] at e
    split at e
    · split at e <;> obtain rfl := Host.Outcome.next.inj e <;> exact h
    all_goals
      obtain rfl := Host.Outcome.next.inj e
      exact h
  | internalReadEnd full header data =>
    simp only [exec, execInternalReadEnd] at e
    split at e <;> obtain rfl := Host.Outcome.next.inj e
    · exact reportGateEnd_ilockFrom ((internalEnds_decides _).ilockFrom
        (readOutcome_ilockFrom ((dropDriveGates_touches s).ilockFrom (by decide) h)))
    all_goals exact h
  | internalWriteEnd =>
    simp only [exec, execInternalWriteEnd] at e
    split at e <;> obtain rfl := Host.Outcome.next.inj e
    · exact afterWrite_ilockFrom ((writeDone_touches _ _ s).ilockFrom (by decide) h)
    · exact reportGateEnd_ilockFrom ((internalEnds_decides _).ilockFrom
        ((dropDriveGates_touches s).ilockFrom (by decide) h))
    all_goals exact h
  | driveOrderAcknowledge =>
    simp only [exec, execDriveOrderAcknowledge] at e
    split at e <;> obtain rfl := Host.Outcome.next.inj e
    · exact orderAcknowledged_ilockFrom h
    · exact h
  | driveAcknowledgeFall =>
    obtain rfl := Host.Outcome.next.inj e
    exact (offerNext_decides _).ilockFrom h
  | orderWithdrawn w =>
    simp only [exec, execOrderWithdrawn] at e
    split at e
    · split at e <;> obtain rfl := Host.Outcome.next.inj e
      · exact reportGateEnd_ilockFrom ((offerNext_decides _).ilockFrom (orderFailed_ilockFrom h))
      · exact h
    · obtain rfl := Host.Outcome.next.inj e
      exact h
  | onCylinderRise =>
    obtain rfl := Host.Outcome.next.inj e
    exact onCylinderJudged_ilockFrom h
  | seekErrorRise w =>
    obtain rfl := Host.Outcome.next.inj e
    exact seekErrorJudged_ilockFrom h
  | driveFaultLine w =>
    obtain rfl := Host.Outcome.next.inj e
    exact faultJudged_ilockFrom h
  | onCylinderFall w =>
    simp only [exec, execOnCylinderFall] at e
    split at e <;> obtain rfl := Host.Outcome.next.inj e
    · exact positionLost_ilockFrom h
    · exact h
  | clearingStepSucceeded =>
    simp only [exec, execClearingStepSucceeded] at e
    split at e <;> obtain rfl := Host.Outcome.next.inj e
    · exact (startRecalibration_decides _ _).ilockFrom h
    · exact h
  | seekNoAnswer =>
    simp only [exec, execSeekNoAnswer] at e
    split at e <;> obtain rfl := Host.Outcome.next.inj e
    · exact attemptFailed_ilockFrom h
    · exact h
  | clearingTimeLimit | recalibrationTimeLimit =>
    simp only [exec, execClearingTimeLimit, execRecalibrationTimeLimit] at e
    split at e <;> obtain rfl := Host.Outcome.next.inj e
    · exact stepFailed_ilockFrom h
    · exact h
  | writeProtectedChange level =>
    simp only [exec, execWriteProtectedChange] at e
    split at e <;> obtain rfl := Host.Outcome.next.inj e <;> exact h
  | readyRise =>
    simp only [exec, execReadyRise] at e
    split at e <;> obtain rfl := Host.Outcome.next.inj e <;> exact h
  | readyFall w =>
    simp only [exec, execReadyFall] at e
    split at e
    · obtain rfl := Host.Outcome.next.inj e
      exact h
    · split at e <;> obtain rfl := Host.Outcome.next.inj e
      · exact acceptedFall_ilockFrom h
      · exact h
  | readyAccepted =>
    simp only [exec, execReadyAccepted] at e
    split at e
    · split at e <;> obtain rfl := Host.Outcome.next.inj e
      · exact enterCalibrating_ilockFrom h
      · exact h
    · obtain rfl := Host.Outcome.next.inj e
      exact h
  | rotationLost w =>
    simp only [exec, execRotationLost] at e
    split at e
    · split at e
      · obtain rfl := Host.Outcome.next.inj e
        exact spinDown_ilockFrom h
      · split at e <;> obtain rfl := Host.Outcome.next.inj e
        · exact fallInHold_ilockFrom h
        · exact h
    · obtain rfl := Host.Outcome.next.inj e
      exact h
  | supplyWarning w =>
    simp only [exec, execSupplyWarning] at e
    split at e <;> obtain rfl := Host.Outcome.next.inj e
    · exact h
    · unfold acceptWarning
      simp only
      split
      · exact h
      · exact enterHold_ilockFrom h
  | supplyClearAccepted =>
    simp only [exec, execSupplyClearAccepted] at e
    split at e
    · split at e <;> obtain rfl := Host.Outcome.next.inj e
      · unfold leaveHold
        split
        · exact enterCalibrating_ilockFrom h
        · exact h
      · exact h
    · obtain rfl := Host.Outcome.next.inj e
      exact h
  | releaseInterval =>
    obtain rfl := Host.Outcome.next.inj e
    exact (judgeRelease_decides s).ilockFrom h
  | budgetExpiry =>
    simp only [exec, execBudgetExpiry] at e
    split at e
    · split at e <;> obtain rfl := Host.Outcome.next.inj e
      · unfold budgetExpires
        split
        · exact h
        · exact (grantEnd_decides _ _ s).ilockFrom h
      · exact h
    all_goals
      obtain rfl := Host.Outcome.next.inj e
      exact h
  | interlockChainEnd c =>
    obtain rfl := Host.Outcome.next.inj e
    exact endChain_ilockFrom (ageOut_ilockFrom h)
  | interlockAgedOut v n =>
    obtain rfl := Host.Outcome.next.inj e
    exact ageOut_ilockFrom h

/-- What one step does to the Interlock Unit: an empty queue's tick leaves it. -/
theorem step_course {s t : State} (hstep : step s = .next t) : s.ilock.Course t.ilock := by
  cases hp : s.pending with
  | nil =>
    rw [step_empty hp] at hstep
    obtain rfl := Host.Outcome.next.inj hstep
    exact (tick_touches s).ilockFrom (by decide) .start
  | cons i rest =>
    have hexec : exec i { s with pending := rest } = .next t := by
      rw [← hstep, step, hp]
    exact exec_ilockFrom (s := { s with pending := rest }) .start hexec

/-- Settles O8: each thing that a step does to the Interlock Unit keeps the law. -/
theorem stepKeepsInterlockList : Obligations.StepKeepsInterlockList := fun _ _ h hstep => h.along (step_course hstep)

end Sys2Proof.Machine
end

section
/-! The ends of interlocks: a chain C ticks quiet, an entry M ticks old, and the release that they cause (R118, R121,
R122, R125, R129). -/

namespace Sys2Proof.Machine

/-! ## Removals from one holder -/

/-- A removal that takes entries of one holder alone puts that holder's peer to the release test (R125). -/
theorem removeEntries_of_holder {c : Chan} {test : Entry → Bool} {s : State}
    (h : ∀ x ∈ s.ilock.list, test x = true → x.holder = c) (hsome : ∃ x ∈ s.ilock.list, test x = true) :
    removeEntries test s = releaseTest (peer c) (withoutEntries test s) := by
  have hpeer : anyEntryOf s (peer c) test = false := by
    rw [anyEntryOf, List.any_eq_false]
    intro x hx hboth
    simp only [Bool.and_eq_true, decide_eq_true_eq] at hboth
    exact peer_ne c (hboth.1.symm.trans (h x hx hboth.2))
  have hown : anyEntryOf s c test = true := by
    obtain ⟨x, hx, htest⟩ := hsome
    exact List.any_eq_true.2 ⟨x, hx, by simp [h x hx htest, htest]⟩
  cases c
  all_goals
    simp only [peer] at hpeer
    simp only [removeEntries, hpeer, hown, Bool.false_eq_true, if_false, if_true]
    rfl

theorem releaseTest_not_deferred {d : Chan} {s : State} (hd : (s.view d).st ≠ .deferred) : releaseTest d s = s :=
  if_neg hd

theorem releaseTest_blocked {d : Chan} {s : State} (hd : (s.view d).st = .deferred) (hb : blocked s d = true) :
    releaseTest d s = setDeferred d (s.view d).place s := by
  rw [releaseTest, if_pos hd, if_pos hb]

/-- A DEFERRED view that nothing blocks is released (R125). -/
theorem releaseTest_clear {d : Chan} {s : State} (hd : (s.view d).st = .deferred) (hb : blocked s d = false) :
    ((releaseTest d s).view d).st ≠ .deferred := by
  rw [releaseTest_released hd hb]
  exact letThrough_st d s

theorem blocked_of_place {d : Chan} {p : Place} {s : State} (h : (s.view d).place = some p) :
    blocked s d = heldBy s (peer d) p := by
  rw [blocked, h]

/-! ## Entries by their place -/

theorem Entry.holds_iff (x : Entry) (p : Place) : x.holds p = true ↔ x.place = p := by
  rw [Entry.holds, Bool.and_eq_true, decide_eq_true_eq, decide_eq_true_eq]
  cases p
  rw [Entry.place, Place.mk.injEq]

/-- Where no cylinder stands in two entries, a place is one entry's (R119). -/
theorem holds_place_iff_eq {l : List Entry} (hn : (l.map Entry.place).Nodup) {x e : Entry} (hx : x ∈ l) (he : e ∈ l) :
    x.holds e.place = true ↔ x = e :=
  (x.holds_iff e.place).trans ⟨List.inj_on_of_nodup_map hn hx he, congrArg Entry.place⟩

/-! ## A chain that ends -/

theorem chainLimits_valid {m : MapStore} (h : m.mapState = .valid) :
    m.chainLimits = some (imageWord m.activeMap 10, imageWord m.activeMap 11) := if_pos h

/-- With no entry M ticks old nothing ages out (R122). -/
theorem ageOut_young {test : Entry → Bool} {s : State} (hv : s.map.mapState = .valid)
    (hyoung : ∀ x ∈ s.ilock.list, (s.uptime - x.first).toNat < imageWord s.map.activeMap 11) : ageOut test s = s := by
  have hnone : s.ilock.list.filter (fun x => test x && agedOut s.uptime (imageWord s.map.activeMap 11) x) = [] := by
    refine List.filter_eq_nil_iff.2 fun x hx hboth => ?_
    obtain ⟨-, haged⟩ := Bool.and_eq_true_iff.1 hboth
    exact absurd ((agedOut_iff _ _ _).1 haged) (Nat.not_le.2 (hyoung x hx))
  simp only [ageOut, chainLimits_valid hv, hnone]
  rfl

/-- A chain stamp C ticks old takes the chain with it (R121). -/
theorem endChain_quiet {c : Chan} {stamp : Stamp} {s : State} (hv : s.map.mapState = .valid)
    (hstamp : s.ilock.chain.get c = some stamp)
    (hquiet : imageWord s.map.activeMap 10 ≤ (s.uptime - stamp).toNat) : endChain c s = removeChain c s := by
  have hends : chainQuiet s.uptime (imageWord s.map.activeMap 10) (s.ilock.chain.get c) = true :=
    (chainQuiet_iff _ _ _).2 ⟨stamp, hstamp, hquiet⟩
  simp only [endChain, chainLimits_valid hv, hends, if_true]

/-- A channel with a chain stamp has entries (R118). -/
theorem InterlockLaw.stamped {c : Chan} {stamp : Stamp} {s : State} (h : InterlockLaw s)
    (hstamp : s.ilock.chain.get c = some stamp) : entriesOf s c ≠ [] := fun hn => by
  obtain ⟨-, hchain⟩ := h.channel c
  rw [hstamp, hn] at hchain
  exact nomatch hchain

theorem InterlockLaw.unstamped {c : Chan} {s : State} (h : InterlockLaw s) (hn : entriesOf s c = []) :
    s.ilock.chain.get c = none := by
  obtain ⟨-, hchain⟩ := h.channel c
  rw [hn] at hchain
  exact Option.not_isSome_iff_eq_none.1 (by rw [hchain]; decide)

/-- A chain removed leaves the peer's entries, and its stamp (R118, R121). -/
theorem removeChain_chain_peer {c : Chan} {s : State} (h : InterlockLaw s) :
    (removeChain c s).ilock.chain.get (peer c) = s.ilock.chain.get (peer c) := by
  have hentries : entriesOf (withoutChain c s) (peer c) = entriesOf s (peer c) := by
    refine (withoutEntries_entriesOf _ s (peer c)).trans (List.filter_eq_self.2 fun x hx => ?_)
    have hholder : x.holder = peer c := by simpa using List.of_mem_filter hx
    simp [hholder]
  have hchain : (withoutChain c s).ilock.chain.get (peer c)
      = if entriesOf (withoutChain c s) (peer c) = [] then none else s.ilock.chain.get (peer c) :=
    withoutEntries_chain _ s (peer c)
  rw [(removeChain_decides c s).chain, hchain, hentries]
  split
  · next hn => exact (h.unstamped hn).symm
  · rfl

theorem removeChain_list (c : Chan) (s : State) :
    (removeChain c s).ilock.list = s.ilock.list.filter fun x => decide (x.holder ≠ c) := by
  rw [removeChain, removeEntries_list]
  simp only [ne_eq, decide_not]

/-- A chain that ends releases a peer that is DEFERRED (R125). -/
theorem removeChain_peer_released {c : Chan} {s : State} (hsome : entriesOf s c ≠ [])
    (hd : (s.view (peer c)).st = .deferred) : ((removeChain c s).view (peer c)).st ≠ .deferred := by
  rw [removeChain_eq, if_neg hsome]
  exact releaseTest_clear (s := withoutChain c s) hd (blocked_withoutChain c s)

theorem removeChain_peer_not_deferred {c : Chan} {s : State} (hd : (s.view (peer c)).st ≠ .deferred) :
    removeChain c s = withoutChain c s :=
  removeEntries_own (fun x hx => by simpa using hx) hd

/-! ## An entry that ages out -/

/-- Where no cylinder stands in two entries, an entry M ticks old ages out alone (R119, R122). -/
theorem ageOut_entry {e : Entry} {s : State} (hv : s.map.mapState = .valid)
    (hn : (s.ilock.list.map Entry.place).Nodup) (he : e ∈ s.ilock.list)
    (haged : imageWord s.map.activeMap 11 ≤ (s.uptime - e.first).toNat) :
    ageOut (fun x => x.holds e.place) s = ageOne e s := by
  have hdue : s.ilock.list.filter (fun x => x.holds e.place && agedOut s.uptime (imageWord s.map.activeMap 11) x)
      = [e] := by
    have hsame : ∀ x ∈ s.ilock.list,
        (x.holds e.place && agedOut s.uptime (imageWord s.map.activeMap 11) x) = (x == e) := fun x hx => by
      rw [Bool.eq_iff_iff, Bool.and_eq_true, beq_iff_eq, holds_place_iff_eq hn hx he, agedOut_iff]
      exact ⟨And.left, fun hxe => ⟨hxe, by rw [hxe]; exact haged⟩⟩
    rw [List.filter_congr hsame, List.filter_beq, List.count_eq_one_of_mem hn.of_map he, List.replicate_one]
  simp only [ageOut, chainLimits_valid hv, hdue]
  rfl

section
variable {e : Entry} {s : State} (hn : (s.ilock.list.map Entry.place).Nodup) (he : e ∈ s.ilock.list)
include hn he

theorem ageOne_list_eq : (ageOne e s).ilock.list = s.ilock.list.filter fun x => decide (x ≠ e) := by
  rw [ageOne_list]
  refine List.filter_congr fun x hx => ?_
  have hsame : x.holds e.place = decide (x = e) := by
    rw [Bool.eq_iff_iff, decide_eq_true_eq]
    exact holds_place_iff_eq hn hx he
  rw [decide_not, ← hsame]
  rfl

/-- The holder's peer is put to the release test (R125). -/
theorem ageOne_eq :
    ageOne e s = releaseTest (peer e.holder) (withoutEntries (fun x => x.holds e.place)
      (raise (.sole .interlockAgedOut) (some e.holder) (placeAddr e.vol e.cyl) e.sectors s)) := by
  have halone : ∀ x ∈ s.ilock.list, x.holds e.place = true → x.holder = e.holder := fun x hx hholds =>
    congrArg Entry.holder ((holds_place_iff_eq hn hx he).1 hholds)
  exact removeEntries_of_holder (s := raise _ _ _ _ s) halone ⟨e, he, (e.holds_iff e.place).2 rfl⟩

end

/-- Without its entries on a place, no channel holds it. -/
theorem heldBy_withoutEntries_self (d : Chan) (p : Place) (s : State) :
    heldBy (withoutEntries (fun x => x.holds p) s) d p = false := by
  rw [heldBy, List.any_eq_false]
  intro x hx
  have hother : x.holds p = false := by simpa using List.of_mem_filter hx
  simp [hother]

/-- A place held stays held where the entries of another go. -/
theorem heldBy_withoutEntries_other {d : Chan} {p q : Place} {s : State} (hpq : p ≠ q) (h : heldBy s d p = true) :
    heldBy (withoutEntries (fun x => x.holds q) s) d p = true := by
  obtain ⟨x, hx, hboth⟩ := List.any_eq_true.1 h
  obtain ⟨hholder, hholds⟩ := Bool.and_eq_true_iff.1 hboth
  refine List.any_eq_true.2 ⟨x, List.mem_filter.2 ⟨hx, ?_⟩, hboth⟩
  rw [Bool.not_eq_true', ← Bool.not_eq_true, Entry.holds_iff, (x.holds_iff p).1 hholds]
  exact hpq

/-- Settles O52: a chain that ends as a removal of it, then an entry that ages out by the release test of its holder's
peer. -/
theorem interlocksEnd : Obligations.InterlocksEnd := by
  intro c stamp e s hv hlaw
  refine ⟨fun hstamp hquiet hyoung => ?chain, fun he haged => ?aged⟩
  case chain =>
    have hend : endChain c (ageOut (fun x => decide (x.holder = c)) s) = removeChain c s := by
      rw [ageOut_young hv hyoung, endChain_quiet hv hstamp hquiet]
    have hexec : exec (.interlockChainEnd c) s = .next (removeChain c s) := congrArg Host.Outcome.next hend
    exact ⟨_, hexec, removeChain_list c s, removeChain_chain c s, removeChain_chain_peer hlaw,
      removeChain_peer_released (hlaw.stamped hstamp), fun hd => by rw [removeChain_peer_not_deferred hd]; rfl,
      (removeChain_moves c s).frame⟩
  case aged =>
    obtain ⟨hn, -⟩ := id hlaw
    have hexec : exec (.interlockAgedOut e.vol e.cyl) s = .next (ageOne e s) :=
      congrArg Host.Outcome.next (ageOut_entry hv hn he haged)
    let y := peer e.holder
    let r := withoutEntries (fun x => x.holds e.place)
      (raise (.sole .interlockAgedOut) (some e.holder) (placeAddr e.vol e.cyl) e.sectors s)
    have hu : ageOne e s = releaseTest y r := ageOne_eq hn he
    have hblocked : ∀ p, (s.view y).place = some p → blocked r y = heldBy r e.holder p := fun p hp => by
      rw [blocked_of_place (s := r) hp, peer_peer]
    refine ⟨_, hexec, ageOne_list_eq hn he, (ageOne_moves e s).frame, fun hopen => ?recorded,
      fun hd hp => ?released, fun p hd hp hpe hheld => ?still, fun hd => ?quiet⟩
    case recorded => exact (recorded_raise _ _ _ _ s hopen).keep (removeEntries_moves _ _).events
    case released =>
      rw [hu]
      exact releaseTest_clear (s := r) hd ((hblocked _ hp).trans (heldBy_withoutEntries_self _ _ _))
    case still =>
      have hb : blocked r y = true := (hblocked p hp).trans (heldBy_withoutEntries_other hpe hheld)
      rw [hu, releaseTest_blocked (s := r) hd hb]
      exact ⟨rfl, (Pair.get_set_self _ _ _).trans hp⟩
    case quiet => rw [hu, releaseTest_not_deferred (s := r) hd]; rfl

end Sys2Proof.Machine
end

section
/-! The Mailbox Unit's reports at the end of a passed gate on head 0 of the mailbox cylinder (R131 to R138). -/

namespace Sys2Proof.Machine

/-! ## What a report does to the Mailbox Unit -/

/-- A slot that is set changes whether it is POSTED, and no other slot (R138). -/
theorem posted_of_slots {s t : State} {k : Fin 24} {x : Option Posting} (h : t.mbox.slots = s.mbox.slots.set k x)
    (j : Fin 24) : posted t j = if j = k then x.isSome else posted s j := by
  unfold posted
  rw [h]
  by_cases hj : j = k
  · simp [hj]
  · have hother : (k : Nat) ≠ j := fun he => hj (Fin.ext he.symm)
    simp [hj, hother]

theorem setNotice_mbox (c : Chan) (l : List (Fin 24)) (s : State) :
    (setNotice c l s).mbox = { s.mbox with notice := s.mbox.notice.set c l } := rfl

theorem setNotice_view (c d : Chan) (l : List (Fin 24)) (s : State) :
    (setNotice c l s).view d = if d = c then
      { s.view c with causes := { (s.view c).causes with mailboxNotice := !l.isEmpty } } else s.view d := by
  rw [setNotice, setView_view]
  rfl

theorem setNotice_touches (c : Chan) (l : List (Fin 24)) (s : State) :
    TouchesOnly [.view c, .mbox] s (setNotice c l s) :=
  ((touches_mbox s _).mono (by simp)).trans ((touches_view c _ _).mono (by simp))

/-- The sequence check raises its event and leaves all else (R134). -/
theorem raiseGap_eq (c : Chan) (n : Nat) (k : Fin 24) (q : BitVec 8) (s : State) :
    raiseGap c n k q s = { s with ev := (raiseGap c n k q s).ev } := by
  unfold raiseGap
  split
  · split <;> rfl
  · rfl

theorem raiseGap_onlyRaises (c : Chan) (n : Nat) (k : Fin 24) (q : BitVec 8) (s : State) :
    OnlyRaises [.chan c .mailboxSequenceGap] s (raiseGap c n k q s) := by
  unfold raiseGap
  split
  · split
    · exact .refl _ s
    · exact raiseFor_onlyRaises c _ _ _ rfl
  · exact .refl _ s

/-- A gap is recorded with the number that came and the one expected (R134, R174). -/
theorem raiseGap_records {c : Chan} {k : Fin 24} {q e : BitVec 8} {s : State} (n : Nat)
    (he : s.mbox.expected.get c = some e) (hq : q ≠ e) (ho : Open (.chan c .mailboxSequenceGap) s) :
    Recorded (.chan c .mailboxSequenceGap) (q.toNat * 2 ^ 8 + e.toNat) (raiseGap c n k q s) := by
  simp only [raiseGap, he, hq, if_false]
  exact recorded_raise _ _ _ _ s ho

/-- What the Mailbox Unit holds once a message is posted in a FREE slot (R133, R137). -/
theorem postMessage_mbox {k : Fin 24} {s : State} (h : posted s k = false) (c : Chan) (n : Nat) (q : BitVec 8) :
    (postMessage c n k q s).mbox =
      { slots := s.mbox.slots.set k (some ⟨c, q, sequenceGap (s.mbox.expected.get c) q, s.uptime⟩)
        notice := s.mbox.notice.set (peer c) (s.mbox.notice.get (peer c) ++ [k])
        expected := s.mbox.expected.set c (some (q + 1#8)) } := by
  rw [postMessage, raiseGap_eq, h]
  rfl


theorem postMessage_ev {k : Fin 24} {s : State} (h : posted s k = false) (c : Chan) (n : Nat) (q : BitVec 8) :
    (postMessage c n k q s).ev = (raiseGap c n k q s).ev := by
  rw [postMessage, h]
  rfl

/-- A posted message gives its receiver MAILBOX NOTICE (R42, R133). -/
theorem postMessage_notice {k : Fin 24} {s : State} (h : posted s k = false) (c : Chan) (n : Nat) (q : BitVec 8) :
    ((postMessage c n k q s).view (peer c)).causes.mailboxNotice = true := by
  rw [postMessage, if_neg (by simp [h])]
  simp [setNotice_view]

/-! ## The laws through a report -/

theorem noticeLaw_iff (s : State) :
    NoticeLaw s ↔ ∀ c, (s.view c).causes.mailboxNotice = !(s.mbox.notice.get c).isEmpty :=
  ⟨fun ⟨ha, hb⟩ c => by cases c <;> assumption, fun h => ⟨h .a, h .b⟩⟩

/-- The law of the slots, with the notice list of a channel's peer written first. -/
theorem mailboxLaw_iff (c : Chan) (s : State) :
    MailboxLaw s ↔ (s.mbox.notice.get (peer c) ++ s.mbox.notice.get c).Nodup
      ∧ ∀ k, posted s k = true ↔ k ∈ s.mbox.notice.get (peer c) ∨ k ∈ s.mbox.notice.get c := by
  have hslots : (∀ k, posted s k = (s.mbox.notice.a ++ s.mbox.notice.b).contains k) ↔
      ∀ k, posted s k = true ↔ k ∈ s.mbox.notice.a ∨ k ∈ s.mbox.notice.b :=
    forall_congr' fun k => by rw [Bool.eq_iff_iff, List.contains_iff_mem, List.mem_append]
  rw [MailboxLaw, hslots]
  cases c with
  | a => exact and_congr List.nodup_append_comm (forall_congr' fun k => iff_congr .rfl or_comm)
  | b => rfl

theorem setNotice_noticeLaw {c : Chan} {l : List (Fin 24)} {s : State} (h : NoticeLaw s) :
    NoticeLaw (setNotice c l s) := by
  rw [noticeLaw_iff] at h ⊢
  intro d
  rw [setNotice_view, setNotice_mbox, Pair.get_set]
  split
  · rfl
  · exact h d

theorem postMessage_noticeLaw {c : Chan} {n : Nat} {k : Fin 24} {q : BitVec 8} {s : State} (h : NoticeLaw s) :
    NoticeLaw (postMessage c n k q s) := by
  unfold postMessage
  split
  · exact h
  · rw [raiseGap_eq]
    exact setNotice_noticeLaw (s := postSlot c k q _) h

/-- A message joins the notice list of its receiver alone, with a slot that stood in neither list (R133, R137). -/
theorem postMessage_mailboxLaw {c : Chan} {n : Nat} {k : Fin 24} {q : BitVec 8} {s : State} (h : MailboxLaw s) :
    MailboxLaw (postMessage c n k q s) := by
  cases hfree : posted s k with
  | true => rwa [postMessage, if_pos hfree]
  | false =>
    rw [mailboxLaw_iff c] at h ⊢
    obtain ⟨hnodup, hslots⟩ := h
    obtain ⟨hpeer, hself⟩ : k ∉ s.mbox.notice.get (peer c) ∧ k ∉ s.mbox.notice.get c := by
      rw [← not_or, ← hslots, hfree]
      exact Bool.false_ne_true
    have hunit := postMessage_mbox hfree c n q
    have hset := posted_of_slots (congrArg Mailbox.slots hunit)
    simp only [hset, hunit, Pair.get_set_self, Pair.get_peer_set]
    refine ⟨?_, fun j => ?_⟩
    · rw [List.append_assoc, List.singleton_append, List.nodup_middle, List.nodup_cons, List.mem_append, not_or]
      exact ⟨⟨hpeer, hself⟩, hnodup⟩
    · by_cases hj : j = k <;> simp [hj, hslots]

theorem mailboxWrite_laws {c : Chan} {n : Nat} {k : Fin 24} {routing : Word} {s : State} (hm : MailboxLaw s)
    (hn : NoticeLaw s) : MailboxLaw (mailboxWrite c n k routing s) ∧ NoticeLaw (mailboxWrite c n k routing s) := by
  unfold mailboxWrite
  split
  · exact ⟨hm, hn⟩
  · exact ⟨postMessage_mailboxLaw hm, postMessage_noticeLaw hn⟩
  · exact ⟨hm, hn⟩

/-- What the Mailbox Unit holds once a channel has read a slot posted to it (R136). -/
theorem mailboxRead_mbox {c : Chan} {k : Fin 24} {s : State} (h : posted s k = true)
    (hl : (s.mbox.notice.get c).contains k = true) :
    (mailboxRead c k s).mbox =
      { s.mbox with
        slots := s.mbox.slots.set k none
        notice := s.mbox.notice.set c ((s.mbox.notice.get c).erase k) } := by
  rw [mailboxRead, h, hl]
  rfl

theorem mailboxRead_notice {c : Chan} {k : Fin 24} {s : State} (h : posted s k = true)
    (hl : (s.mbox.notice.get c).contains k = true) :
    ((mailboxRead c k s).view c).causes.mailboxNotice = !((s.mbox.notice.get c).erase k).isEmpty := by
  rw [mailboxRead, h, hl]
  simp [setNotice_view]

theorem mailboxRead_touches (c : Chan) (k : Fin 24) (s : State) :
    TouchesOnly [.view c, .mbox] s (mailboxRead c k s) := by
  unfold mailboxRead
  split
  · exact ((touches_mbox s _).mono (by simp)).trans (setNotice_touches c _ _)
  · exact .refl _ s

/-- A consumed slot is FREE, and gone from the one list that held it (R136, R137). -/
theorem mailboxRead_laws {c : Chan} {k : Fin 24} {s : State} (hm : MailboxLaw s) (hn : NoticeLaw s) :
    MailboxLaw (mailboxRead c k s) ∧ NoticeLaw (mailboxRead c k s) := by
  by_cases h : (posted s k && (s.mbox.notice.get c).contains k) = true
  · obtain ⟨hposted, hlisted⟩ := Bool.and_eq_true_iff.1 h
    refine ⟨?mailbox, ?notice⟩
    case mailbox =>
      rw [mailboxLaw_iff c] at hm ⊢
      obtain ⟨hnodup, hslots⟩ := hm
      obtain ⟨hpeer, hself, hapart⟩ := List.nodup_append.1 hnodup
      have hmine : k ∈ s.mbox.notice.get c := List.contains_iff_mem.1 hlisted
      have hnotPeer : k ∉ s.mbox.notice.get (peer c) := fun hk => hapart k hk k hmine rfl
      have hunit := mailboxRead_mbox hposted hlisted
      have hset := posted_of_slots (congrArg Mailbox.slots hunit)
      simp only [hset, hunit, Pair.get_set_self, Pair.get_set_peer]
      refine ⟨hnodup.sublist (List.Sublist.append_left List.erase_sublist _), fun j => ?_⟩
      rw [hself.mem_erase_iff]
      by_cases hj : j = k <;> simp [hj, hnotPeer, hslots]
    case notice =>
      rw [mailboxRead, if_pos h]
      exact setNotice_noticeLaw (s := { s with mbox := { s.mbox with slots := _ } }) hn
  · rw [mailboxRead, if_neg h]
    exact ⟨hm, hn⟩

/-! ## The reports by their routing -/

theorem mailboxWrite_toPeer {routing : Word} (h : routing.extractLsb' 8 8 = 0x01#8) (c : Chan) (n : Nat) (k : Fin 24)
    (s : State) : mailboxWrite c n k routing s = postMessage c n k (sequenceOf routing) s := by
  have hdest : destination routing = .toPeer := by simp [destination, h]
  rw [mailboxWrite, hdest]

theorem mailboxWrite_unrouted {routing : Word} (hkeep : routing.extractLsb' 8 8 ≠ 0x00#8)
    (hpeer : routing.extractLsb' 8 8 ≠ 0x01#8) (c : Chan) (n : Nat) (k : Fin 24) (s : State) :
    mailboxWrite c n k routing s = raiseFor c .mailboxUnrouted (slotAddr n k) routing.toNat s := by
  have hdest : destination routing = .unrouted := by rw [destination, if_neg hkeep, if_neg hpeer]
  rw [mailboxWrite, hdest]

/-- What is not for PEER leaves the Mailbox Unit (R132, R135). -/
theorem mailboxWrite_elsewhere {routing : Word} (h : routing.extractLsb' 8 8 ≠ 0x01#8) (c : Chan) (n : Nat)
    (k : Fin 24) (s : State) : (mailboxWrite c n k routing s).mbox = s.mbox := by
  by_cases hkeep : routing.extractLsb' 8 8 = 0x00#8
  · have hdest : destination routing = .keep := if_pos hkeep
    rw [mailboxWrite, hdest]
  · rw [mailboxWrite_unrouted hkeep h]
    rfl

theorem mailboxWrite_onlyRaises (c : Chan) (n : Nat) (k : Fin 24) (routing : Word) (s : State) :
    OnlyRaises [.chan c .mailboxSequenceGap, .chan c .mailboxUnrouted] s (mailboxWrite c n k routing s) := by
  unfold mailboxWrite
  split
  · exact .refl _ s
  · cases hfree : posted s k with
    | true =>
      rw [postMessage, if_pos hfree]
      exact .refl _ s
    | false =>
      rw [OnlyRaises, postMessage_ev hfree]
      exact (raiseGap_onlyRaises c n k _ s).mono (by simp)
  · exact (raiseFor_onlyRaises c .mailboxUnrouted _ _ rfl).mono (by simp)

/-! ## The drop of a full gate on head 0 of the mailbox cylinder -/

/-- A gate on the mailbox cylinder that drops goes unreported to the Interlock Unit (R33, R109). -/
theorem exec_mailboxDrop {c : Chan} {g : GateRecord} {s : State} (hp : PlainGate s c g) (hc : g.cls = .mailbox)
    (w : Carried) :
    exec (.gateDrop c w) s = .next (repositioned c (endGate .shortWrite w (endPortGate c s))) := by
  rw [exec_gateDrop hp, gateEnd_unreported hp.endPortGate fun hf => nomatch hc.symm.trans hf.2.2]

/-- A full write is judged, and reported with its routing word (R109, R131, R132). -/
theorem endGate_mailboxWrite {g : GateRecord} {w : Carried} {s : State} {routing : Word} (hg : s.relay.gate = some g)
    (hk : g.kind ≠ .read) (hw : reachedCheckWord w = true) (hc : g.cls = .mailbox) (hh : g.addr.head = .h0)
    (hr : w.data.head? = some routing) (k : TearCause) :
    endGate k w s = mailboxWrite g.chan g.addr.cyl g.addr.sector routing (mendSector g.addr (dropped g w s)) := by
  have hkind : ¬(g.carry w).kind = .read := hk
  have hfull : (g.carry w).checkWord = true := hw
  have hfirst : (g.carry w).firstWord = some routing := (if_neg hk).trans hr
  have hshared : ¬(g.carry w).cls = .shared := by simp [GateRecord.carry, hc]
  have hinterlock : ∀ t, reportInterlock (g.carry w) t = t := fun t => if_neg fun h => hshared h.2.2
  rw [endGate_eq hg, hinterlock, judgeGate, if_neg hkind, if_pos hfull, reportMailbox, if_pos ⟨hc, hh, hfull⟩,
    if_neg hkind]
  simp only [hfirst]
  rfl

/-- A full read without CHECK ERROR is reported (R109, R131). -/
theorem endGate_mailboxRead {g : GateRecord} {w : Carried} {s : State} (hg : s.relay.gate = some g)
    (hk : g.kind = .read) (hw : reachedCheckWord w = true) (he : g.checkError = false) (hc : g.cls = .mailbox)
    (hh : g.addr.head = .h0) (k : TearCause) : endGate k w s = mailboxRead g.chan g.addr.sector (dropped g w s) := by
  have hkind : (g.carry w).kind = .read := hk
  have hclean : ¬(g.carry w).checkError = true := by simp [GateRecord.carry, he]
  have hinterlock : ∀ t, reportInterlock (g.carry w) t = t := fun t => if_neg fun h => h.1 hkind
  rw [endGate_eq hg, hinterlock, judgeGate, if_pos hkind, reportMailbox, if_pos ⟨hc, hh, hw⟩, if_pos hkind,
    if_neg hclean]
  rfl

/-- The part in which a full write is reported, whatever the class of its space, has no gate up (R109). -/
theorem sharedWritten_gate (g : GateRecord) (w : Carried) (s : State) : (sharedWritten g w s).relay.gate = none :=
  congrArg Relay.gate (dropped_relay g w (endPortGate g.chan s))

/-- Settles O26: by the destination code of the routing word. -/
theorem fullMailboxWritePosts : Obligations.FullMailboxWritePosts := by
  intro c w s g routing hp hk hw hc hh hrouting hfree q
  have hdrop := exec_mailboxDrop hp hc w
  rw [endGate_mailboxWrite hp.endPortGate.1 hk hw hc hh hrouting] at hdrop
  obtain ⟨-, rfl, -⟩ := hp
  let k := g.addr.sector
  let r := sharedWritten g w s
  let v := mailboxWrite g.chan g.addr.cyl k routing r
  have hwritten : TouchesOnly [.port g.chan, .relay, .drive] s r := sharedWritten_touches hk w s
  have hposts : Posts r v := mailboxWrite_posts g.chan g.addr.cyl k routing r
  have hmbox : r.mbox = s.mbox := hwritten .mbox (by simp)
  have hev : r.ev = s.ev := hwritten .ev (by simp)
  have huptime : r.uptime = s.uptime := hwritten .uptime (by simp)
  have hrfree : posted r k = false := by rw [posted, hmbox]; exact hfree
  have hopen : ∀ {e}, Open (.chan g.chan e) s → Open (.chan g.chan e) r := fun ho => by rw [Open, hev]; exact ho
  refine ⟨repositioned g.chan v, hdrop, by rw [repositioned_view], ?gate, ?frame, ?raises, fun hpeer => ?posts,
    fun hpeer => ?free, fun hkeep hpeer ho => ?unrouted⟩
  case gate => exact (congrArg Relay.gate (hposts.frame .relay (by decide))).trans (sharedWritten_gate g w s)
  case frame =>
    exact (hwritten.mono (by simp)).trans ((hposts.frame.mono (by cases g.chan <;> decide)).trans
      ((repositioned_touches g.chan v).mono (by simp)))
  case raises =>
    have hraises := mailboxWrite_onlyRaises g.chan g.addr.cyl k routing r
    rwa [OnlyRaises, hev] at hraises
  case posts =>
    have hv : v = postMessage g.chan g.addr.cyl k q r := mailboxWrite_toPeer hpeer g.chan g.addr.cyl k r
    have hunit : (repositioned g.chan v).mbox = _ :=
      (congrArg State.mbox hv).trans (postMessage_mbox hrfree g.chan g.addr.cyl q)
    rw [hmbox, huptime] at hunit
    rw [hunit]
    refine ⟨?posting, Pair.get_set_self _ _ _, Pair.get_peer_set _ _ _, Pair.get_set_self _ _ _, ?notice,
      fun e he hq ho => ?gap⟩
    case posting =>
      show (s.mbox.slots.set k _)[k] = _
      rw [Fin.getElem_fin, Vector.getElem_set_self]
      rfl
    case notice =>
      rw [repositioned, setView_view_peer, hv]
      exact postMessage_notice hrfree g.chan g.addr.cyl q
    case gap =>
      have hrecorded := raiseGap_records (k := k) g.addr.cyl (by rw [hmbox]; exact he) hq (hopen ho)
      unfold Recorded at hrecorded ⊢
      rw [← postMessage_ev hrfree, ← hv] at hrecorded
      exact hrecorded
  case free => exact (mailboxWrite_elsewhere hpeer g.chan g.addr.cyl k r).trans hmbox
  case unrouted =>
    have hv : v = _ := mailboxWrite_unrouted hkeep hpeer g.chan g.addr.cyl k r
    have hrecorded := recorded_raise (.chan g.chan .mailboxUnrouted) (some g.chan) (slotAddr g.addr.cyl k)
      routing.toNat r (hopen ho)
    unfold Recorded
    rw [show (repositioned g.chan v).ev = v.ev from rfl, hv]
    exact hrecorded

/-- Settles O27: the report of the read consumes the slot, and the drop does nothing else to the Mailbox Unit. -/
theorem fullMailboxReadConsumes : Obligations.FullMailboxReadConsumes := by
  intro c w s g hp hk hw he hc hh hposted hlisted
  have hdrop := exec_mailboxDrop hp hc w
  rw [endGate_mailboxRead hp.endPortGate.1 hk hw he hc hh] at hdrop
  obtain ⟨-, rfl, -⟩ := hp
  let k := g.addr.sector
  let r := dropped g w (endPortGate g.chan s)
  let v := mailboxRead g.chan k r
  have hdropped : TouchesOnly [.port g.chan, .relay, .drive] s r :=
    ((endPortGate_touches g.chan s).mono (by simp)).trans (dropped_touches g w _)
  have hmbox : r.mbox = s.mbox := hdropped .mbox (by simp)
  have hrposted : posted r k = true := by rw [posted, hmbox]; exact hposted
  have hrlisted : (r.mbox.notice.get g.chan).contains k = true := by rw [hmbox]; exact hlisted
  have hunit : (repositioned g.chan v).mbox = _ := mailboxRead_mbox hrposted hrlisted
  have hset := posted_of_slots (congrArg Mailbox.slots hunit)
  rw [hmbox] at hunit
  have hsame : ∀ j, posted r j = posted s j := fun j => by rw [posted, hmbox]; rfl
  refine ⟨repositioned g.chan v, hdrop, by rw [repositioned_view], by rw [hset, if_pos rfl]; rfl,
    fun j hj => by rw [hset, if_neg hj, hsame], ?own, ?peers, by rw [hunit], ?cause, ?frame⟩
  case own => rw [hunit]; exact Pair.get_set_self _ _ _
  case peers => rw [hunit]; exact Pair.get_set_peer _ _ _
  case cause =>
    rw [repositioned_view]
    exact (mailboxRead_notice hrposted hrlisted).trans (by rw [hmbox])
  case frame =>
    exact (hdropped.mono (by simp)).trans (((mailboxRead_touches g.chan k r).mono (by simp)).trans
      ((repositioned_touches g.chan v).mono (by simp)))

end Sys2Proof.Machine
end

section
/-! What a step keeps of the Mailbox Unit and of MAILBOX NOTICE (R42, R137, R139): the two laws together through every
operation of the part. An update of another block leaves both as they stand. -/

namespace Sys2Proof.Machine

/-! ## The two laws together -/

/-- The slots, the notice lists and MAILBOX NOTICE agree (R42, R137). -/
def PostLaw (s : State) : Prop := MailboxLaw s ∧ NoticeLaw s

theorem PostLaw.of_same {s t : State} (h : PostLaw s) (hm : t.mbox = s.mbox)
    (hn : ∀ c, (t.view c).causes.mailboxNotice = (s.view c).causes.mailboxNotice) : PostLaw t := by
  obtain ⟨hmailbox, hnotice⟩ := h
  rw [noticeLaw_iff] at hnotice
  refine ⟨?_, (noticeLaw_iff t).2 fun c => by rw [hn, hm]; exact hnotice c⟩
  unfold MailboxLaw posted
  rw [hm]
  exact hmailbox

theorem Decides.postLaw {s t : State} (hd : Decides s t) (h : PostLaw s) : PostLaw t := h.of_same hd.mbox hd.notice

theorem Lowered.postLaw {s t : State} (hl : Lowered s t) (h : PostLaw s) : PostLaw t :=
  h.of_same (hl.frame .mbox (by decide)) fun c => by rw [hl.causes]

theorem TouchesOnly.postLaw {l : List Part} {s t : State} (ht : TouchesOnly l s t)
    (hl : ∀ p ∈ [Part.view .a, .view .b, .mbox], p ∉ l) (h : PostLaw s) : PostLaw t :=
  h.of_same (ht .mbox (hl _ (by simp))) fun c => by
    rw [show t.view c = s.view c from ht (.view c) (hl _ (by cases c <;> simp))]

theorem setView_postLaw {c : Chan} {v : View} {s : State} (h : PostLaw s)
    (hv : v.causes.mailboxNotice = (s.view c).causes.mailboxNotice) : PostLaw (setView c v s) :=
  h.of_same rfl fun d => by
    rw [setView_view]
    split
    · next hd => rw [hd, hv]
    · rfl

section
variable {s : State}

/-! ## Entries and views -/

theorem removeEntries_postLaw {test : Entry → Bool} (h : PostLaw s) : PostLaw (removeEntries test s) :=
  (removeEntries_decides test s).postLaw h

theorem removeChain_postLaw {c : Chan} (h : PostLaw s) : PostLaw (removeChain c s) :=
  removeEntries_postLaw h

theorem standbySeekError_postLaw {c : Chan} (h : PostLaw s) : PostLaw (standbySeekError c s) :=
  (leave_decides c (s.view c).st (setView c { (s.view c).seekFailed with st := .standby } s)).postLaw
    (setView_postLaw h rfl)

theorem deferRequest_postLaw {c : Chan} (h : PostLaw s) : PostLaw (deferRequest c s) := by
  let r := setDeferred c (s.view c).place
    (setView c { s.view c with st := .deferred, wait := (s.view c).waitAtRequest } s)
  have hr : PostLaw r := setView_postLaw h rfl
  have hleft : PostLaw (match (s.view c).st with
      | .requesting => withdrawRequest c r
      | .positioned => giveUp c r
      | _ => r) := by
    split
    · exact (withdrawRequest_decides c r).postLaw hr
    · exact (giveUp_decides c r).postLaw hr
    · exact hr
  unfold deferRequest
  simp only
  split
  · exact removeChain_postLaw hleft
  · exact hleft

theorem makeRequest_postLaw {c : Chan} (h : PostLaw s) : PostLaw (makeRequest c s) := by
  unfold makeRequest
  split
  · exact deferRequest_postLaw h
  · exact (letThrough_decides c _).postLaw (setView_postLaw h rfl)

theorem enterFaulted_postLaw {c : Chan} {k : FaultCause} (h : PostLaw s) : PostLaw (enterFaulted c k s) := by
  unfold enterFaulted
  simp only
  split
  · exact h
  · exact removeChain_postLaw ((leave_decides c _ _).postLaw (setView_postLaw h rfl))

theorem viewsUnusable_postLaw (h : PostLaw s) : PostLaw (viewsUnusable s) := (viewsUnusable_lowered s).postLaw h

theorem viewsSpunDown_postLaw (h : PostLaw s) : PostLaw (viewsSpunDown s) :=
  removeEntries_postLaw (((viewUnusable_lowered .a s).trans (viewUnusable_lowered .b _)).postLaw h)

theorem viewsUsable_postLaw (h : PostLaw s) : PostLaw (viewsUsable s) :=
  h.of_same (viewsUsable_touches s .mbox (by decide)) fun c => by rw [viewsUsable_causes]

/-- MAILBOX NOTICE is given by the Mailbox Unit alone (R42). -/
theorem giveCause_postLaw {c : Chan} {k : Cause} (h : PostLaw s) (hk : k ≠ .mailboxNotice) :
    PostLaw (giveCause c k s) := by
  unfold giveCause
  split
  · exact h
  · refine setView_postLaw h ?_
    cases k with
    | mailboxNotice => exact absurd rfl hk
    | _ => rfl

theorem idleToZero_postLaw {c : Chan} (h : PostLaw s) : PostLaw (idleToZero c s) := by
  unfold idleToZero
  split
  · exact h
  · exact setView_postLaw h rfl

/-! ## Entries that age, and a map activation -/

theorem ageOut_postLaw {test : Entry → Bool} (h : PostLaw s) : PostLaw (ageOut test s) := by
  unfold ageOut
  split
  · exact h
  · exact List.foldlRecOn _ _ (motive := PostLaw) h fun t ht e _ => removeEntries_postLaw ht

theorem endChain_postLaw {c : Chan} (h : PostLaw s) : PostLaw (endChain c s) := by
  unfold endChain
  split
  · exact h
  · split
    · exact removeChain_postLaw h
    · exact h

theorem pruneInterlocks_postLaw (h : PostLaw s) : PostLaw (pruneInterlocks s) :=
  endChain_postLaw (endChain_postLaw (ageOut_postLaw (removeEntries_postLaw h)))

/-- A waiting view translated again: its target kept, a request made anew, or STANDBY (R38). -/
theorem retranslatedRequest_postLaw {c : Chan} {t : Target} (h : PostLaw s) :
    PostLaw (match translate s c (s.view c).sel.vol t.logical with
      | .mapped t' => if t'.physical = t.physical then setTarget c t' s else makeRequest c (setTarget c t' s)
      | _ => standbySeekError c s) := by
  split
  · split
    · exact setView_postLaw h rfl
    · exact makeRequest_postLaw (setView_postLaw h rfl)
  · exact standbySeekError_postLaw h

theorem retranslated_causes (s : State) (c : Chan) (v : View) : (retranslated s c v).causes = v.causes := by
  unfold retranslated
  split
  · rfl
  · split <;> rfl

theorem viewAtActivation_postLaw {c : Chan} (h : PostLaw s) : PostLaw (viewAtActivation c s) := by
  unfold viewAtActivation
  simp only
  split
  · exact setView_postLaw h (by rw [retranslated_causes])
  · exact setView_postLaw h (by rw [retranslated_causes])
  · exact retranslatedRequest_postLaw h
  · exact retranslatedRequest_postLaw h
  · split
    · split
      · exact setView_postLaw h rfl
      · exact (leave_decides c .positioned _).postLaw (setView_postLaw (setView_postLaw h rfl) rfl)
    · exact standbySeekError_postLaw h
  · exact h

theorem viewsAtActivation_postLaw (h : PostLaw s) : PostLaw (viewsAtActivation s) := by
  have hdrawn : PostLaw ({ s with free := s.free + 1 } : State) := h
  unfold viewsAtActivation
  split
  · simp only
    split
    · exact viewAtActivation_postLaw (viewAtActivation_postLaw hdrawn)
    · exact viewAtActivation_postLaw (viewAtActivation_postLaw hdrawn)
  · exact viewAtActivation_postLaw (viewAtActivation_postLaw h)

/-- A cleared mailbox has every slot FREE, both lists empty and neither view MAILBOX NOTICE (R139). -/
theorem clearMailbox_postLaw (s : State) : PostLaw (clearMailbox s) := by
  have hfree : ∀ k, posted (clearMailbox s) k = false := fun k => by
    simp [posted, clearMailbox_mbox, Mailbox.initial]
  refine ⟨⟨List.nodup_nil, hfree⟩, (noticeLaw_iff _).2 fun c => ?_⟩
  rw [clearMailbox_view, clearMailbox_mbox]
  cases c <;> rfl

theorem mailboxAtActivation_postLaw {old : Option Nat} (h : PostLaw s) : PostLaw (mailboxAtActivation old s) := by
  unfold mailboxAtActivation
  split
  · exact h
  · exact clearMailbox_postLaw s

theorem raiseSole_postLaw {e : SoleEvent} {p : PartAddr} {n : Nat} (h : PostLaw s) : PostLaw (raiseSole e p n s) := h

theorem copyStaged_postLaw (h : PostLaw s) : PostLaw (copyStaged s) := h

theorem activate_postLaw {imgs : CommitImages} (h : PostLaw s) : PostLaw (activate imgs s) := by
  have htranslated : PostLaw (viewsAtActivation (pruneInterlocks (installImages imgs s))) :=
    viewsAtActivation_postLaw (pruneInterlocks_postLaw h)
  have hannounced : ∀ t, PostLaw t → ∀ n, PostLaw (raiseSole .mapCommitted .absent n
      (copyStaged (judgeRelease (giveCause .b .mapChanged (giveCause .a .mapChanged t))))) := fun t ht _ =>
    raiseSole_postLaw (copyStaged_postLaw
      ((judgeRelease_decides _).postLaw (giveCause_postLaw (giveCause_postLaw ht nofun) nofun)))
  unfold activate
  simp only
  split
  · exact viewsUsable_postLaw (hannounced _ (mailboxAtActivation_postLaw htranslated) _)
  · exact hannounced _ (mailboxAtActivation_postLaw htranslated) _

/-! ## Gates -/

theorem handGate_postLaw {c : Chan} {line : GateLine} {n : Nat} (h : PostLaw s) : PostLaw (handGate c line n s) := by
  unfold handGate
  split
  · exact h
  · split
    · exact h
    · simp only
      split
      · exact setView_postLaw h rfl
      · split
        · unfold suppressWrite
          simp only
          split <;> exact enterFaulted_postLaw h
        · exact setView_postLaw h rfl

theorem appendEntry_postLaw {c : Chan} {p : Place} (h : PostLaw s) : PostLaw (appendEntry c p s) := by
  unfold appendEntry
  simp only
  split
  · exact (withdrawRequest_decides (peer c) _).postLaw (setView_postLaw h rfl)
  · exact h

theorem overflowOldest_postLaw {c : Chan} (h : PostLaw s) : PostLaw (overflowOldest c s) := by
  unfold overflowOldest
  split
  · exact h
  · exact removeEntries_postLaw h

theorem reportInterlock_postLaw {g : GateRecord} (h : PostLaw s) : PostLaw (reportInterlock g s) := by
  unfold reportInterlock fullSharedWrite
  split
  · split
    · exact h
    · split
      · split <;> exact h
      · split
        · exact appendEntry_postLaw (s := setChain _ _ s) h
        · exact appendEntry_postLaw (s := setChain _ _ _) (overflowOldest_postLaw h)
  · exact h

theorem judgeGate_postLaw {g : GateRecord} {k : TearCause} (h : PostLaw s) : PostLaw (judgeGate g k s) := by
  have hadded : PostLaw (addTorn ⟨g.addr, .chan g.chan, k, s.uptime⟩ s) :=
    (addTorn_touches _ s).postLaw (by decide) h
  unfold judgeGate
  split
  · exact h
  · split
    · exact h
    · unfold tearWrite
      simp only
      split
      · exact giveCause_postLaw hadded nofun
      · exact hadded

theorem reportMailbox_postLaw {g : GateRecord} (h : PostLaw s) : PostLaw (reportMailbox g s) := by
  obtain ⟨hmailbox, hnotice⟩ := id h
  unfold reportMailbox
  split
  · split
    · split
      · exact h
      · exact mailboxRead_laws hmailbox hnotice
    · split
      · exact mailboxWrite_laws hmailbox hnotice
      · exact h
  · exact h

theorem endGate_postLaw {k : TearCause} {w : Carried} (h : PostLaw s) : PostLaw (endGate k w s) := by
  cases hg : s.relay.gate with
  | none =>
    simp only [endGate, hg]
    exact h
  | some g =>
    rw [endGate_eq hg]
    exact reportMailbox_postLaw (reportInterlock_postLaw (judgeGate_postLaw
      ((dropped_touches g w s).postLaw (by simp) h)))

theorem endGatePositioned_postLaw {k : TearCause} {w : Carried} (h : PostLaw s) :
    PostLaw (endGatePositioned k w s) := by
  unfold endGatePositioned
  split
  · exact h
  · next c _ =>
    have hidle : PostLaw (idleToZero c (endGate k w s)) := idleToZero_postLaw (endGate_postLaw h)
    unfold backToPositioned
    split
    · simp only
      split
      · exact (grantEnd_decides c .budget _).postLaw (setView_postLaw hidle rfl)
      · exact setView_postLaw hidle rfl
    · exact hidle

theorem overrun_postLaw {w : Carried} (h : PostLaw s) : PostLaw (overrun w s) := by
  unfold overrun
  split
  · exact h
  · exact enterFaulted_postLaw (endGate_postLaw (k := .gateOverrun) (w := w) h)

theorem orderDuringGate_postLaw {c : Chan} {n : Nat} {w : Carried} (h : PostLaw s) :
    PostLaw (orderDuringGate c n w s) := by
  unfold orderDuringGate
  split
  · exact h
  · exact enterFaulted_postLaw (endGate_postLaw h)

/-! ## Drive Watch -/

theorem halt_postLaw (h : PostLaw s) : PostLaw (halt s) := (halt_interrupted s).postLaw (by decide) h

theorem emptyQueue_postLaw {k : TearCause} {w : Carried} (h : PostLaw s) : PostLaw (emptyQueue k w s) :=
  (emptyQueue_interrupted k w s).postLaw (by decide) h

theorem holdHalt_postLaw (h : PostLaw s) : PostLaw (holdHalt s) :=
  viewsUnusable_postLaw (halt_postLaw (s := { s with watch := { s.watch with writeEndWait := false } }) h)

theorem reportGateEnd_postLaw (h : PostLaw s) : PostLaw (reportGateEnd s) := (reportGateEnd_lowered s).postLaw h

theorem enterRunning_postLaw (h : PostLaw s) : PostLaw (enterRunning s) := by
  obtain ⟨hframe, -, -, hcauses, -⟩ := enterRunning_entered s
  exact h.of_same (hframe .mbox (by decide)) fun c => by rw [hcauses]

theorem labelReadOutcome_postLaw {r : ReadResult} (h : PostLaw s) : PostLaw (labelReadOutcome r s) := by
  have hcompared : PostLaw (compareCartridge r s) := by
    unfold compareCartridge
    split
    · exact giveCause_postLaw (giveCause_postLaw (raiseSole_postLaw h) nofun) nofun
    · exact h
  have hstored := (storeLabel_touches r _).postLaw (by decide) hcompared
  unfold labelReadOutcome
  simp only
  split
  · exact enterRunning_postLaw hstored
  · exact hstored

theorem enterReadingLabel_postLaw (h : PostLaw s) : PostLaw (enterReadingLabel s) := by
  unfold enterReadingLabel
  simp only
  split
  · exact labelReadOutcome_postLaw h
  · exact (internalArrives_decides _ _).postLaw h

theorem mapReadOutcome_postLaw {r : ReadResult} (h : PostLaw s) : PostLaw (mapReadOutcome r s) := by
  have hstored := (storeMap_touches r s).postLaw (by decide) h
  unfold mapReadOutcome
  simp only
  split
  · exact enterReadingLabel_postLaw hstored
  · exact hstored

theorem enterReadingMap_postLaw (h : PostLaw s) : PostLaw (enterReadingMap s) := by
  unfold enterReadingMap
  simp only
  split
  · exact mapReadOutcome_postLaw h
  · exact (internalArrives_decides _ _).postLaw h

theorem watchCalibrated_postLaw (h : PostLaw s) : PostLaw (watchCalibrated s) := by
  have hresumed : PostLaw (resume s) := by
    unfold resume
    split
    · exact (decideGrant_decides _).postLaw h
    · exact h
  unfold watchCalibrated nextStep
  split
  · split
    · exact enterReadingMap_postLaw hresumed
    · split
      · exact enterReadingLabel_postLaw hresumed
      · exact enterRunning_postLaw hresumed
  · exact h

theorem enterCalibrating_postLaw (h : PostLaw s) : PostLaw (enterCalibrating s) :=
  (askCalibration_decides (setWatchState .calibrating s)).postLaw h

theorem markStopped_postLaw (h : PostLaw s) : PostLaw (markStopped s) := h

theorem enterSpunDown_postLaw (h : PostLaw s) : PostLaw (enterSpunDown s) := by
  unfold enterSpunDown
  split <;> exact h

theorem spinDown_postLaw {w : Carried} (h : PostLaw s) : PostLaw (spinDown w s) :=
  enterSpunDown_postLaw (viewsSpunDown_postLaw (halt_postLaw (markStopped_postLaw
    (emptyQueue_postLaw (endGate_postLaw h)))))

theorem enterHold_postLaw {w : Carried} (h : PostLaw s) : PostLaw (enterHold w s) := by
  unfold enterHold
  simp only
  split <;> split
  · exact endGatePositioned_postLaw (s := { s with watch := _ }) h
  · exact holdHalt_postLaw (endGatePositioned_postLaw h)
  · exact h
  · exact holdHalt_postLaw h

theorem fallInHold_postLaw {w : Carried} (h : PostLaw s) : PostLaw (fallInHold w s) := by
  have hemptied : PostLaw (emptyQueue .driveDropped w (endGate .driveDropped w s)) :=
    emptyQueue_postLaw (endGate_postLaw h)
  have hstopped : ∀ t, PostLaw t →
      PostLaw (viewsSpunDown (markStopped { t with watch := { t.watch with spinOwed := true } })) := fun t ht =>
    viewsSpunDown_postLaw (markStopped_postLaw ht)
  unfold fallInHold
  refine hstopped _ ?_
  split
  · exact holdHalt_postLaw hemptied
  · exact hemptied

theorem acceptedFall_postLaw {w : Carried} (h : PostLaw s) : PostLaw (acceptedFall w s) := by
  unfold acceptedFall
  split
  · exact h
  · exact h
  · exact spinDown_postLaw h
  · exact spinDown_postLaw h
  · exact spinDown_postLaw h
  · exact spinDown_postLaw h
  · exact fallInHold_postLaw h
  · exact spinDown_postLaw h

theorem enterDriveFault_postLaw (h : PostLaw s) : PostLaw (enterDriveFault s) :=
  viewsUnusable_postLaw (halt_postLaw (s := setWatchState .driveFault _)
    (emptyQueue_postLaw (endGate_postLaw h)))

theorem restartReading_postLaw {w : Carried} (h : PostLaw s) : PostLaw (restartReading w s) :=
  enterCalibrating_postLaw (halt_postLaw (emptyQueue_postLaw h))

/-! ## Positioner Control -/

theorem commitFails_postLaw {n : Nat} {p : PartAddr} (h : PostLaw s) : PostLaw (commitFails n p s) :=
  (commitFails_interrupted n p s).postLaw (by decide) h

theorem internalSeekFailed_postLaw (h : PostLaw s) : PostLaw (internalSeekFailed s) := by
  unfold internalSeekFailed
  split
  · exact (internalEnds_decides _).postLaw (mapReadOutcome_postLaw h)
  · exact (internalEnds_decides _).postLaw (labelReadOutcome_postLaw h)
  · exact (internalEnds_decides _).postLaw (commitFails_postLaw h)
  · exact (internalEnds_decides _).postLaw h

theorem claimFailed_postLaw {c : Chan} (h : PostLaw s) : PostLaw (claimFailed c s) :=
  (claimEnd_decides c false _).postLaw ((removeRequest_decides c _).postLaw (setView_postLaw h rfl))

theorem arbiterFailed_postLaw {n : Nat} (h : PostLaw s) : PostLaw (arbiterFailed n s) := by
  unfold arbiterFailed
  split
  · split
    · exact (claimEnd_decides _ _ s).postLaw h
    · split
      · exact claimFailed_postLaw h
      · exact (seekFor_decides _ s).postLaw h
  · exact internalSeekFailed_postLaw h
  all_goals exact h

theorem closingSucceeded_postLaw {n : Nat} (h : PostLaw s) : PostLaw (closingSucceeded n s) :=
  arbiterFailed_postLaw (s := { s with pos := _ }) h

theorem seekReached_postLaw {n : Nat} (h : PostLaw s) : PostLaw (seekReached n s) :=
  (arbiterReached_decides n _).postLaw h

theorem attemptFailed_postLaw {o : SeekOutcome} (h : PostLaw s) : PostLaw (attemptFailed o s) := by
  have hraised : PostLaw (raiseAttempt o s) := by
    unfold raiseAttempt
    simp only
    split <;> split <;> exact h
  exact (startClearing_decides _ _).postLaw hraised

theorem contradictory_postLaw {n : Nat} (h : PostLaw s) : PostLaw (contradictory n s) :=
  enterDriveFault_postLaw h

theorem stepFailed_postLaw {b : Bool} {k : StepCause} (h : PostLaw s) : PostLaw (stepFailed b k s) :=
  enterDriveFault_postLaw h

theorem seekFromZero_postLaw {n : Nat} (h : PostLaw s) : PostLaw (seekFromZero n s) := by
  unfold seekFromZero
  split
  · exact seekReached_postLaw h
  · exact (attemptSeek_decides n s).postLaw h

theorem takeHeld_postLaw (h : PostLaw s) : PostLaw (takeHeld s) := by
  unfold takeHeld
  split
  · exact h
  · simp only
    split
    · exact (startClearing_decides _ _).postLaw h
    · exact seekFromZero_postLaw h

theorem recalibrated_postLaw (h : PostLaw s) : PostLaw (recalibrated s) := by
  unfold recalibrated
  simp only
  split
  · exact watchCalibrated_postLaw h
  · exact closingSucceeded_postLaw h
  · exact seekFromZero_postLaw h
  · exact seekFromZero_postLaw h
  · exact seekFromZero_postLaw h
  · exact takeHeld_postLaw h

theorem faultWhileRunning_postLaw {w : Carried} (h : PostLaw s) : PostLaw (faultWhileRunning w s) := by
  have hcut : PostLaw (cutAtFault w s) := by
    unfold cutAtFault
    split
    · simp only
      split
      · exact setView_postLaw (endGate_postLaw h) rfl
      · exact endGate_postLaw h
    · exact h
  have hfailed : PostLaw (commitAtFault w (cutInternal .driveFault w (cutAtFault w s))) := by
    have hinternal := (cutInternal_interrupted .driveFault w _).postLaw (by decide) hcut
    unfold commitAtFault
    split
    · exact (runningCommitFails_interrupted false w _).postLaw (by decide) hinternal
    · exact hinternal
  exact ((beginRecovery_decides _).trans (endAtFault_decides _)).postLaw hfailed

theorem positionLost_postLaw {w : Carried} (h : PostLaw s) : PostLaw (positionLost w s) := by
  unfold positionLost
  split
  · exact h
  · split
    · exact faultWhileRunning_postLaw h
    · split
      · exact restartReading_postLaw h
      · exact h

theorem orderFailed_postLaw {o : DriveOrder} {w : Carried} (h : PostLaw s) : PostLaw (orderFailed o w s) := by
  unfold orderFailed
  split
  · split
    · exact attemptFailed_postLaw h
    · exact h
  · split
    · exact stepFailed_postLaw h
    · exact h
  · split
    · exact stepFailed_postLaw h
    · exact h
  · unfold headWithdrawn
    split
    · exact faultWhileRunning_postLaw h
    · split
      · exact restartReading_postLaw h
      · exact h

theorem orderAcknowledged_postLaw {o : DriveOrder} (h : PostLaw s) : PostLaw (orderAcknowledged o s) := by
  unfold orderAcknowledged
  split
  · exact h
  · simp only
    split
    · exact (startRecalibration_decides _ _).postLaw h
    · exact h
  · exact h
  · next sel issuer =>
    have hcleared : ∀ t : State, PostLaw t → PostLaw (clearPending sel issuer t) := fun t ht => by
      unfold clearPending
      split <;> exact ht
    have hhead : ∀ t : State, PostLaw t → PostLaw (headForTransfer sel t) := fun t ht => by
      unfold headForTransfer
      split
      · split <;> exact ht
      · exact ht
    simp only
    split
    · exact hhead _ (hcleared _ h)
    · exact hcleared _ h

theorem onCylinderJudged_postLaw (h : PostLaw s) : PostLaw (onCylinderJudged s) := by
  unfold onCylinderJudged
  split
  · split
    · split
      · exact contradictory_postLaw h
      · exact seekReached_postLaw h
    · exact h
  · split
    · split
      · exact contradictory_postLaw h
      · exact recalibrated_postLaw h
    · exact h
  all_goals exact h

theorem seekErrorJudged_postLaw {w : Carried} (h : PostLaw s) : PostLaw (seekErrorJudged w s) := by
  unfold seekErrorJudged
  split
  · split
    · split
      · exact contradictory_postLaw h
      · exact attemptFailed_postLaw h
    · exact h
  · split
    · split
      · exact contradictory_postLaw h
      · exact stepFailed_postLaw h
    · exact h
  · exact positionLost_postLaw h
  all_goals exact h

theorem faultJudged_postLaw {w : Carried} (h : PostLaw s) : PostLaw (faultJudged w (raiseFaultLine s)) := by
  have hraised : PostLaw (raiseFaultLine s) := by
    unfold raiseFaultLine
    split <;> exact h
  unfold faultJudged
  split
  · split
    · exact attemptFailed_postLaw hraised
    · exact hraised
  · split
    · exact stepFailed_postLaw hraised
    · exact hraised
  · split
    · exact faultWhileRunning_postLaw hraised
    · split
      · exact restartReading_postLaw hraised
      · exact hraised
  all_goals exact hraised

/-! ## Orders, gates and presence at a port -/

theorem orderArrives_postLaw {c : Chan} {b : Bool} {f : State → State}
    (hf : ∀ t, PostLaw t → PostLaw (f t)) (h : PostLaw s) : PostLaw (orderArrives c b f s) := by
  have heffect : PostLaw (f (idleToZero c (setPort c { s.port c with strobe := true } s))) :=
    hf _ (idleToZero_postLaw (s := setPort c _ s) h)
  unfold orderArrives
  simp only
  split
  · exact h
  · split <;> exact heffect

theorem translateOrder_postLaw {c : Chan} {n : Nat} (h : PostLaw s) : PostLaw (translateOrder c n s) := by
  unfold translateOrder
  simp only
  split
  · exact standbySeekError_postLaw h
  · exact standbySeekError_postLaw (s := raiseUnmapped c n s) h
  · split
    · exact setView_postLaw h rfl
    · exact makeRequest_postLaw (setView_postLaw h rfl)

theorem cylinderEffect_postLaw {c : Chan} {n : Nat} {w : Carried} (h : PostLaw s) :
    PostLaw (cylinderEffect c n w s) := by
  unfold cylinderEffect
  split
  · exact h
  · exact setView_postLaw h rfl
  · exact translateOrder_postLaw h
  · exact translateOrder_postLaw h
  · exact translateOrder_postLaw h
  · exact translateOrder_postLaw h
  · exact reportGateEnd_postLaw (orderDuringGate_postLaw h)
  · exact h

theorem headStays_postLaw {c : Chan} (h : PostLaw s) : PostLaw (headStays c s) := by
  unfold headStays
  split
  · exact (headAtOrder_decides c s).postLaw h
  · exact h

theorem headTranslates_postLaw {c : Chan} {t : Target} (h : PostLaw s) : PostLaw (headTranslates c t s) := by
  have hkept : ∀ t', PostLaw (keepRequest c (setTarget c t' s)) := fun t' => by
    unfold keepRequest
    split <;> exact setView_postLaw h rfl
  unfold headTranslates
  simp only
  split
  · split
    · exact setView_postLaw h rfl
    · exact standbySeekError_postLaw h
  · exact standbySeekError_postLaw (s := raiseUnmapped c t.logical s) h
  · split
    · exact headStays_postLaw (hkept _)
    · split
      · exact setView_postLaw h rfl
      · exact makeRequest_postLaw (setView_postLaw h rfl)

theorem takeHead_postLaw {c : Chan} {x : Sel} (h : PostLaw s) : PostLaw (takeHead c x s) := by
  have hselected : PostLaw (setView c ((s.view c).select x) s) := setView_postLaw h rfl
  unfold takeHead
  simp only
  split
  · exact headStays_postLaw hselected
  · split
    · exact headStays_postLaw hselected
    · exact headTranslates_postLaw hselected

theorem headEffect_postLaw {c : Chan} {x : Sel} {w : Carried} (h : PostLaw s) : PostLaw (headEffect c x w s) := by
  unfold headEffect
  split
  · exact h
  · exact takeHead_postLaw h
  · exact takeHead_postLaw h
  · exact takeHead_postLaw h
  · exact takeHead_postLaw h
  · exact takeHead_postLaw h
  · exact reportGateEnd_postLaw (orderDuringGate_postLaw h)
  · exact h

theorem recalibrateEffect_postLaw {c : Chan} (h : PostLaw s) : PostLaw (recalibrateEffect c s) := by
  have hcleared : PostLaw (cylinderEffect c 0 .nothing (clearSeekError c s)) :=
    cylinderEffect_postLaw (setView_postLaw h rfl)
  unfold recalibrateEffect
  split
  · exact h
  · exact hcleared
  · exact hcleared
  · exact hcleared
  · exact hcleared
  · exact hcleared
  · exact h
  · exact h

theorem faultClearEffect_postLaw {c : Chan} (h : PostLaw s) : PostLaw (faultClearEffect c s) := by
  unfold faultClearEffect leaveFaulted
  split
  · simp only
    split
    · exact setView_postLaw h rfl
    · exact removeChain_postLaw (setView_postLaw h rfl)
  · exact setView_postLaw h rfl

theorem gateEffect_postLaw {c : Chan} {line : GateLine} {n : Nat} (h : PostLaw s) :
    PostLaw (gateEffect c line n s) := by
  unfold gateEffect
  split
  · exact h
  · exact h
  · split
    · exact makeRequest_postLaw h
    · exact h
  · exact h
  · exact h
  · exact handGate_postLaw h
  · exact h
  · exact h

theorem dropGate_postLaw {c : Chan} {w : Carried} (h : PostLaw s) : PostLaw (dropGate c w s) := by
  have hended : PostLaw (endPortGate c s) := (endPortGate_touches c s).postLaw (by simp) h
  unfold dropGate
  split
  · exact reportGateEnd_postLaw (endGatePositioned_postLaw hended)
  · split
    · exact idleToZero_postLaw hended
    · exact h

theorem losePresence_postLaw {c : Chan} {w : Carried} (h : PostLaw s) : PostLaw (losePresence c w s) := by
  have hcut : PostLaw (cutAtLoss c w s) := by
    unfold cutAtLoss
    split
    · exact endGate_postLaw h
    · exact h
  have hdetached : PostLaw (detachView c (cutAtLoss c w s)) :=
    removeChain_postLaw ((leave_decides c _ _).postLaw (setView_postLaw hcut rfl))
  exact reportGateEnd_postLaw (giveCause_postLaw (s := raiseFor _ _ _ _ _) hdetached nofun)

/-! ## Internal transfers and the maintenance line -/

theorem relayStart_postLaw {k : StartKind} {c : Chan} (h : PostLaw s) : PostLaw (relayStart k c s) := by
  unfold relayStart
  simp only
  split
  · exact setView_postLaw h rfl
  · exact h

/-- An attach sets the causes anew, MAILBOX NOTICE from the notice list as it stands (R40, R42). -/
theorem attached_postLaw {c : Chan} (h : PostLaw s) : PostLaw (unsetExpected c (setView c (attachedView s c) s)) := by
  obtain ⟨hmailbox, hnotice⟩ := h
  rw [noticeLaw_iff] at hnotice
  refine ⟨hmailbox, (noticeLaw_iff _).2 fun d => ?_⟩
  show ((setView c (attachedView s c) s).view d).causes.mailboxNotice = !(s.mbox.notice.get d).isEmpty
  rw [setView_view]
  split
  · next hd =>
    rw [hd]
    rfl
  · exact hnotice d

theorem readOutcome_postLaw {v : Vol} {r : ReadResult} (h : PostLaw s) : PostLaw (readOutcome v r s) := by
  cases v with
  | f => exact mapReadOutcome_postLaw h
  | r => exact labelReadOutcome_postLaw h

theorem afterWrite_postLaw {v : Vol} {imgs : CommitImages} (h : PostLaw s) : PostLaw (afterWrite v imgs s) := by
  unfold afterWrite
  split
  · split
    · exact reportGateEnd_postLaw h
    · exact (beginSector_decides .r s).postLaw h
  · exact reportGateEnd_postLaw ((internalEnds_decides _).postLaw (activate_postLaw h))

theorem takeFrame_postLaw {text : List (BitVec 8)} {act : State → State}
    (hact : ∀ t, PostLaw t → PostLaw (act t)) (h : PostLaw s) : PostLaw (takeFrame text act s) := by
  unfold takeFrame
  split
  · exact h
  · exact hact _ h

theorem selectPage_postLaw {page : Nat} (h : PostLaw s) : PostLaw (selectPage page s) := by
  unfold selectPage
  split <;> exact h

theorem readWord_postLaw {index : Nat} (h : PostLaw s) : PostLaw (readWord index s) := by
  unfold readWord
  split <;> exact h

theorem writeWord_postLaw {index : Nat} {v : Word} (h : PostLaw s) : PostLaw (writeWord index v s) := by
  have hstored : PostLaw (storeWord s.line.page index v s) := by
    unfold storeWord
    split
    · exact h
    · split
      · exact h
      · split <;> exact h
  unfold writeWord
  simp only
  split
  · exact h
  · split
    · exact h
    · split
      · exact h
      · exact hstored

theorem takeFlags_postLaw {index : Nat} (h : PostLaw s) : PostLaw (takeFlags index s) := by
  unfold takeFlags
  split <;> exact h

theorem commitFrame_postLaw (h : PostLaw s) : PostLaw (commitFrame s) := by
  have htaken : PostLaw (takeCommit s) := by
    unfold takeCommit
    simp only
    split
    · exact commitFails_postLaw h
    · exact (internalArrives_decides .mapWrite _).postLaw h
  unfold commitFrame
  split
  · exact h
  · split
    · exact h
    · split
      · exact h
      · exact htaken

end

/-! ## Every command -/

/-- In a part whose blocks have just been set no slot is POSTED and no view has a cause (R130). -/
theorem initialised_postLaw (lines : InputLines) (ev : EventUnit) (t : Stamp) (n : Word) (free : Nat)
    (pending : List Instr) : PostLaw (State.initialised lines ev t n free pending) :=
  ⟨⟨List.nodup_nil, fun k => by simp [posted, State.initialised, Mailbox.initial]⟩, rfl, rfl⟩

/-- Every command keeps the two laws. -/
theorem exec_postLaw {i : Instr} {s t : State} (h : PostLaw s) (e : exec i s = .next t) : PostLaw t := by
  cases i with
  | powerOn lines =>
    obtain rfl := Host.Outcome.next.inj e
    exact initialised_postLaw _ _ _ _ _ _
  | pCommand page =>
    obtain rfl := Host.Outcome.next.inj e
    exact takeFrame_postLaw (fun _ k => selectPage_postLaw k) h
  | rCommand | rUptimeLow | rUptimeHigh =>
    obtain rfl := Host.Outcome.next.inj e
    exact takeFrame_postLaw (fun _ k => readWord_postLaw k) h
  | wEnableWord | wStagedImage | wNotWritable =>
    obtain rfl := Host.Outcome.next.inj e
    exact takeFrame_postLaw (fun _ k => writeWord_postLaw k) h
  | tCommand index text =>
    obtain rfl := Host.Outcome.next.inj e
    exact takeFrame_postLaw (fun _ k => takeFlags_postLaw k) h
  | cCommand =>
    obtain rfl := Host.Outcome.next.inj e
    exact takeFrame_postLaw (fun _ k => commitFrame_postLaw k) h
  | uCommand | kCommand | iCommand | xCommand =>
    obtain rfl := Host.Outcome.next.inj e
    exact takeFrame_postLaw (fun _ k => k) h
  | malformedFrame chars =>
    simp only [exec, execMalformedFrame] at e
    split at e <;> obtain rfl := Host.Outcome.next.inj e <;> exact h
  | replySent w =>
    simp only [exec, execReplySent] at e
    split at e
    · split at e <;> obtain rfl := Host.Outcome.next.inj e
      · exact initialised_postLaw _ _ _ _ _ _
      · exact h
    · obtain rfl := Host.Outcome.next.inj e
      exact h
  | cylinderOrder c v w =>
    obtain rfl := Host.Outcome.next.inj e
    exact orderArrives_postLaw (fun _ k => cylinderEffect_postLaw k) h
  | headOrder c b w =>
    obtain rfl := Host.Outcome.next.inj e
    exact orderArrives_postLaw (fun _ k => headEffect_postLaw k) h
  | recalibrate c =>
    obtain rfl := Host.Outcome.next.inj e
    exact orderArrives_postLaw (fun _ k => recalibrateEffect_postLaw k) h
  | faultClear c =>
    obtain rfl := Host.Outcome.next.inj e
    exact orderArrives_postLaw (fun _ k => faultClearEffect_postLaw k) h
  | report c =>
    obtain rfl := Host.Outcome.next.inj e
    exact orderArrives_postLaw (fun _ k => setView_postLaw k rfl) h
  | unknownFunctionCode | orderNamingNoKind =>
    obtain rfl := Host.Outcome.next.inj e
    exact orderArrives_postLaw (fun _ k => k) h
  | orderStrobeFall | presentRise | supplyWarningInputClears =>
    obtain rfl := Host.Outcome.next.inj e
    exact h
  | gateArrival c line n =>
    simp only [exec, execGateArrival] at e
    split at e <;> obtain rfl := Host.Outcome.next.inj e
    · exact h
    · exact gateEffect_postLaw (idleToZero_postLaw h)
  | gateDrop c w =>
    obtain rfl := Host.Outcome.next.inj e
    exact dropGate_postLaw h
  | unpassedGateDrop c line =>
    simp only [exec, execUnpassedGateDrop] at e
    split at e <;> obtain rfl := Host.Outcome.next.inj e
    · exact dropGate_postLaw h
    · exact h
  | presenceLost c w =>
    simp only [exec, execPresenceLost] at e
    split at e <;> obtain rfl := Host.Outcome.next.inj e
    · exact setView_postLaw h rfl
    · exact losePresence_postLaw h
  | attach c =>
    simp only [exec, execAttach] at e
    split at e <;> obtain rfl := Host.Outcome.next.inj e
    · exact giveCause_postLaw (attached_postLaw h) nofun
    · exact h
  | writeClockLost | supplyWriteCutAtCheckWord =>
    simp only [exec, execWriteClockLost, execSupplyWriteCutAtCheckWord] at e
    split at e <;> obtain rfl := Host.Outcome.next.inj e
    · exact reportGateEnd_postLaw (endGatePositioned_postLaw h)
    · exact h
  | sectorStart k w =>
    obtain rfl := Host.Outcome.next.inj e
    have hcut : PostLaw (overrun w (monitorStart k s)) :=
      overrun_postLaw ((monitorStart_touches k s).postLaw (by decide) h)
    have hrelayed : PostLaw (relayStart k .b (relayStart k .a (overrun w (monitorStart k s)))) :=
      relayStart_postLaw (relayStart_postLaw hcut)
    exact reportGateEnd_postLaw ((transferStart_touches k _).postLaw (by decide) hrelayed)
  | internalWriteGateRise =>
    simp only [exec, execInternalWriteGateRise] at e
    split at e <;> obtain rfl := Host.Outcome.next.inj e <;> exact h
  | checkError =>
    simp only [exec, execCheckError] at e
    split at e
    · split at e <;> obtain rfl := Host.Outcome.next.inj e <;> exact h
    all_goals
      obtain rfl := Host.Outcome.next.inj e
      exact h
  | internalReadEnd full header data =>
    simp only [exec, execInternalReadEnd] at e
    split at e <;> obtain rfl := Host.Outcome.next.inj e
    · exact reportGateEnd_postLaw ((internalEnds_decides _).postLaw
        (readOutcome_postLaw ((dropDriveGates_touches s).postLaw (by decide) h)))
    all_goals exact h
  | internalWriteEnd =>
    simp only [exec, execInternalWriteEnd] at e
    split at e <;> obtain rfl := Host.Outcome.next.inj e
    · exact afterWrite_postLaw ((writeDone_touches _ _ s).postLaw (by decide) h)
    · exact reportGateEnd_postLaw ((internalEnds_decides _).postLaw
        ((dropDriveGates_touches s).postLaw (by decide) h))
    all_goals exact h
  | driveOrderAcknowledge =>
    simp only [exec, execDriveOrderAcknowledge] at e
    split at e <;> obtain rfl := Host.Outcome.next.inj e
    · exact orderAcknowledged_postLaw h
    · exact h
  | driveAcknowledgeFall =>
    obtain rfl := Host.Outcome.next.inj e
    exact (offerNext_decides _).postLaw h
  | orderWithdrawn w =>
    simp only [exec, execOrderWithdrawn] at e
    split at e
    · split at e <;> obtain rfl := Host.Outcome.next.inj e
      · exact reportGateEnd_postLaw ((offerNext_decides _).postLaw (orderFailed_postLaw h))
      · exact h
    · obtain rfl := Host.Outcome.next.inj e
      exact h
  | onCylinderRise =>
    obtain rfl := Host.Outcome.next.inj e
    exact onCylinderJudged_postLaw h
  | seekErrorRise w =>
    obtain rfl := Host.Outcome.next.inj e
    exact seekErrorJudged_postLaw h
  | driveFaultLine w =>
    obtain rfl := Host.Outcome.next.inj e
    exact faultJudged_postLaw h
  | onCylinderFall w =>
    simp only [exec, execOnCylinderFall] at e
    split at e <;> obtain rfl := Host.Outcome.next.inj e
    · exact positionLost_postLaw h
    · exact h
  | clearingStepSucceeded =>
    simp only [exec, execClearingStepSucceeded] at e
    split at e <;> obtain rfl := Host.Outcome.next.inj e
    · exact (startRecalibration_decides _ _).postLaw h
    · exact h
  | seekNoAnswer =>
    simp only [exec, execSeekNoAnswer] at e
    split at e <;> obtain rfl := Host.Outcome.next.inj e
    · exact attemptFailed_postLaw h
    · exact h
  | clearingTimeLimit | recalibrationTimeLimit =>
    simp only [exec, execClearingTimeLimit, execRecalibrationTimeLimit] at e
    split at e <;> obtain rfl := Host.Outcome.next.inj e
    · exact stepFailed_postLaw h
    · exact h
  | writeProtectedChange level =>
    simp only [exec, execWriteProtectedChange] at e
    split at e <;> obtain rfl := Host.Outcome.next.inj e <;> exact h
  | readyRise =>
    simp only [exec, execReadyRise] at e
    split at e <;> obtain rfl := Host.Outcome.next.inj e <;> exact h
  | readyFall w =>
    simp only [exec, execReadyFall] at e
    split at e
    · obtain rfl := Host.Outcome.next.inj e
      exact h
    · split at e <;> obtain rfl := Host.Outcome.next.inj e
      · exact acceptedFall_postLaw h
      · exact h
  | readyAccepted =>
    simp only [exec, execReadyAccepted] at e
    split at e
    · split at e <;> obtain rfl := Host.Outcome.next.inj e
      · exact enterCalibrating_postLaw h
      · exact h
    · obtain rfl := Host.Outcome.next.inj e
      exact h
  | rotationLost w =>
    simp only [exec, execRotationLost] at e
    split at e
    · split at e
      · obtain rfl := Host.Outcome.next.inj e
        exact spinDown_postLaw h
      · split at e <;> obtain rfl := Host.Outcome.next.inj e
        · exact fallInHold_postLaw h
        · exact h
    · obtain rfl := Host.Outcome.next.inj e
      exact h
  | supplyWarning w =>
    simp only [exec, execSupplyWarning] at e
    split at e <;> obtain rfl := Host.Outcome.next.inj e
    · exact h
    · unfold acceptWarning
      simp only
      split
      · exact h
      · exact enterHold_postLaw h
  | supplyClearAccepted =>
    simp only [exec, execSupplyClearAccepted] at e
    split at e
    · split at e <;> obtain rfl := Host.Outcome.next.inj e
      · unfold leaveHold
        split
        · exact enterCalibrating_postLaw h
        · exact h
      · exact h
    · obtain rfl := Host.Outcome.next.inj e
      exact h
  | releaseInterval =>
    obtain rfl := Host.Outcome.next.inj e
    exact (judgeRelease_decides s).postLaw h
  | budgetExpiry =>
    simp only [exec, execBudgetExpiry] at e
    split at e
    · split at e <;> obtain rfl := Host.Outcome.next.inj e
      · unfold budgetExpires
        split
        · exact h
        · exact (grantEnd_decides _ _ s).postLaw h
      · exact h
    all_goals
      obtain rfl := Host.Outcome.next.inj e
      exact h
  | interlockChainEnd c =>
    obtain rfl := Host.Outcome.next.inj e
    exact endChain_postLaw (ageOut_postLaw h)
  | interlockAgedOut v n =>
    obtain rfl := Host.Outcome.next.inj e
    exact ageOut_postLaw h

/-- A tick counts, and leaves the Mailbox Unit and every cause (R43, R44). -/
theorem tick_postLaw {s : State} (h : PostLaw s) : PostLaw (tick s) :=
  h.of_same (tick_touches s .mbox (by decide)) fun c => by
    rw [tick_view]
    rfl

/-- Settles O9: a tick keeps the two laws, and every command does. -/
theorem stepKeepsMailbox : Obligations.StepKeepsMailbox := by
  intro s t hmailbox hnotice hstep
  cases hp : s.pending with
  | nil =>
    rw [step_empty hp] at hstep
    obtain rfl := Host.Outcome.next.inj hstep
    exact tick_postLaw ⟨hmailbox, hnotice⟩
  | cons i rest =>
    have hexec : exec i { s with pending := rest } = .next t := by
      rw [← hstep, step, hp]
    exact exec_postLaw (s := { s with pending := rest }) ⟨hmailbox, hnotice⟩ hexec

end Sys2Proof.Machine
end

section
/-! READY accepted (R100, R144, R146): the drive is calibrated, with a clearing step first where it shows a fault. -/

namespace Sys2Proof.Machine

/-! ## A calibration asked for by Drive Watch -/

theorem driveTroubled_iff (s : State) : driveTroubled s = true ↔ s.drive.fault = true ∨ s.drive.seekError = true := by
  simp [driveTroubled]

/-- Positioner Control in the first step of a calibration: clearing where the drive is troubled (R100). -/
theorem askCalibration_pos {s : State} (h : s.pos.st = .halted) :
    (askCalibration s).pos = s.pos.calibrating (if driveTroubled s then .clearing else .recalibrating) := by
  rw [askCalibration_eq h]
  split
  · exact (requestOrder_same _ _).2.1
  · exact (requestOrder_same _ _).2.1

theorem askCalibration_touches (s : State) : TouchesOnly [.pos, .drive] s (askCalibration s) := by
  by_cases h : s.pos.st = .halted
  · exact (askCalibration_halted h).2.2.2
  · rw [askCalibration, if_neg h]
    exact .refl _ s

theorem setWatchState_touches (k : WatchState) (s : State) : TouchesOnly [.watch] s (setWatchState k s) :=
  touches_watch s _

/-- CALIBRATING entered reaches Drive Watch, and the order lines with Positioner Control (R146). -/
theorem enterCalibrating_touches (s : State) : TouchesOnly [.pos, .drive, .watch] s (enterCalibrating s) :=
  ((setWatchState_touches _ s).mono (by decide)).trans ((askCalibration_touches _).mono (by decide))

theorem enterCalibrating_watch (s : State) : (enterCalibrating s).watch = { s.watch with st := .calibrating } :=
  askCalibration_touches (setWatchState .calibrating s) .watch (by decide)

/-- The part with READY accepted (R144). -/
def readyTaken (s : State) : State := { s with watch := { s.watch with readyAccepted := true } }

theorem exec_readyAccepted {s : State} (hr : s.drive.ready = true) (ha : s.watch.readyAccepted = false)
    (hd : s.watch.readyDebounce = 200) (hw : s.watch.st = .spunDown ∨ s.watch.st = .spinningUp) :
    exec .readyAccepted s = .next (enterCalibrating (readyTaken s)) := by
  have hdue : readyDue s = true := (readyDue_iff s).2 ⟨hr, ha, hd.ge⟩
  simp only [exec, execReadyAccepted, hdue, hw, if_true]
  rfl

/-- Settles O46: READY is taken, and CALIBRATING entered from HALTED. -/
theorem readyAcceptedAsksCalibration : Obligations.ReadyAcceptedAsksCalibration := by
  intro s hr ha hd hw hh
  let t : State := setWatchState .calibrating (readyTaken s)
  have hpos : (askCalibration t).pos = s.pos.calibrating (if driveTroubled s then .clearing else .recalibrating) :=
    askCalibration_pos (s := t) hh
  obtain ⟨-, -, hstep, -⟩ := askCalibration_halted (s := t) hh
  have hframe : TouchesOnly [.pos, .drive, .watch] s (enterCalibrating (readyTaken s)) :=
    ((touches_watch s _).mono (by decide)).trans (enterCalibrating_touches _)
  refine ⟨_, exec_readyAccepted hr ha hd hw, enterCalibrating_watch _, by rw [enterCalibrating, hpos]; rfl,
    by rw [enterCalibrating, hpos]; rfl, fun htrouble => ?clearing, fun hf he => ?recalibrating, hframe⟩
  case clearing =>
    have ht : driveTroubled t = true := (driveTroubled_iff s).2 htrouble
    rw [if_pos ht] at hstep
    exact hstep
  case recalibrating =>
    have ht : ¬driveTroubled t = true := fun h => by simpa [hf, he] using (driveTroubled_iff s).1 h
    rw [if_neg ht] at hstep
    exact hstep

end Sys2Proof.Machine
end

section
/-! A sector start with no gate up (R6, R21, R142): what the rotation monitor makes of it, and what is relayed. -/

namespace Sys2Proof.Machine

/-! ## The rotation monitor -/

theorem isIndex_iff (k : StartKind) : StartKind.isIndex k = true ↔ k ≠ .sector := by cases k <;> decide

/-- E14 for a count out of step, with the fault and the count found (R142, R174). -/
def rotationFaulted (extraSector : Bool) (s : State) : State :=
  raiseSole .rotationFault .absent (detailE14 extraSector s.watch.sector.val) s

/-- A start with an INDEX is that of sector 0, and synchronises; it is early where the count was not 23 (R142). -/
theorem monitorStart_index {k : StartKind} (hk : k ≠ .sector) (s : State) :
    monitorStart k s =
      setRotation 0 true (if s.watch.sync = true ∧ s.watch.sector ≠ 23 then rotationFaulted false s else s) := by
  have hindex := (isIndex_iff k).2 hk
  by_cases h : s.watch.sync = true ∧ s.watch.sector ≠ 23
  · have hstep : (s.watch.sync && decide (s.watch.sector ≠ 23)) = true := by simpa using h
    simp only [monitorStart, hindex, if_true, if_pos h]
    exact if_pos hstep
  · have hstep : ¬(s.watch.sync && decide (s.watch.sector ≠ 23)) = true := by simpa using h
    simp only [monitorStart, hindex, if_true, if_neg h]
    exact if_neg hstep

/-- A start of a SECTOR alone counts up to 23, and is one too many after it (R142). -/
theorem monitorStart_counted {s : State} (h : s.watch.sync = true) :
    monitorStart .sector s =
      if s.watch.sector = 23 then setRotation 23 true (rotationFaulted true s)
      else setRotation (s.watch.sector + 1) true s := by
  simp only [monitorStart, StartKind.isIndex, h, if_true, Bool.false_eq_true, if_false]
  rfl

/-- Before the first INDEX nothing is counted (R142). -/
theorem monitorStart_unsynchronised {s : State} (h : s.watch.sync = false) :
    monitorStart .sector s = setRotation 0 false s := by
  simp [monitorStart, StartKind.isIndex, h]

/-- What the rotation monitor makes of a sector start: the count, the mark, the gap and E14 (R142). -/
structure Monitored (k : StartKind) (s t : State) : Prop where
  watch    : t.watch = { s.watch with sector := t.watch.sector, sync := t.watch.sync, gap := 0 }
  index    : k ≠ .sector → t.watch.sector = 0 ∧ t.watch.sync = true
  mark     : k = .sector → t.watch.sync = s.watch.sync
  counted  : k = .sector → s.watch.sync = true → t.watch.sector.val = min 23 (s.watch.sector.val + 1)
  idle     : k = .sector → s.watch.sync = false → t.watch.sector = 0
  early    : k ≠ .sector → Open (.sole .rotationFault) s → s.watch.sync = true → s.watch.sector ≠ 23 →
    Recorded (.sole .rotationFault) s.watch.sector.val t
  extra    : k = .sector → Open (.sole .rotationFault) s → s.watch.sync = true → s.watch.sector = 23 →
    Recorded (.sole .rotationFault) (2 ^ 15 + 23) t
  raises   : OnlyRaises [.sole .rotationFault] s t

theorem rotationFaulted_records {s : State} (h : Open (.sole .rotationFault) s) (b : Bool) :
    Recorded (.sole .rotationFault) (detailE14 b s.watch.sector.val) (rotationFaulted b s) := recorded_raise _ _ _ _ s h

theorem rotationFaulted_raises (b : Bool) (s : State) : OnlyRaises [.sole .rotationFault] s (rotationFaulted b s) :=
  raiseSole_onlyRaises _ _ _ s

theorem next_sector {n : Fin 24} (h : n ≠ 23) : (n + 1).val = min 23 (n.val + 1) := by omega

theorem monitorStart_monitored (k : StartKind) (s : State) : Monitored k s (monitorStart k s) := by
  by_cases hk : k = .sector
  · subst hk
    cases hsync : s.watch.sync with
    | true =>
      rw [monitorStart_counted hsync]
      split
      · rename_i hlast
        refine ⟨rfl, fun h => absurd rfl h, fun _ => hsync.symm, fun _ _ => by simp [hlast], fun _ h => by simp [hsync] at h,
          fun h => absurd rfl h, fun _ hopen _ _ => ?_, rotationFaulted_raises true s⟩
        have hrecorded := rotationFaulted_records hopen true
        rw [hlast] at hrecorded
        exact hrecorded
      · rename_i hlast
        exact ⟨rfl, fun h => absurd rfl h, fun _ => hsync.symm, fun _ _ => next_sector hlast,
          fun _ h => by simp [hsync] at h, fun h => absurd rfl h, fun _ _ _ h => absurd h hlast, .refl _ s⟩
    | false =>
      rw [monitorStart_unsynchronised hsync]
      exact ⟨rfl, fun h => absurd rfl h, fun _ => hsync.symm, fun _ h => by simp [hsync] at h, fun _ _ => rfl,
        fun h => absurd rfl h, fun _ _ h => by simp [hsync] at h, .refl _ s⟩
  · rw [monitorStart_index hk]
    split
    · refine ⟨rfl, fun _ => ⟨rfl, rfl⟩, fun h => absurd h hk, fun h => absurd h hk, fun h => absurd h hk,
        fun _ hopen _ _ => ?_, fun h => absurd h hk, rotationFaulted_raises false s⟩
      have hrecorded := rotationFaulted_records hopen false
      rw [show detailE14 false s.watch.sector.val = s.watch.sector.val by simp [detailE14]] at hrecorded
      exact hrecorded
    · rename_i hstep
      exact ⟨rfl, fun _ => ⟨rfl, rfl⟩, fun h => absurd h hk, fun h => absurd h hk, fun h => absurd h hk,
        fun _ _ hs hn => absurd ⟨hs, hn⟩ hstep, fun h => absurd h hk, .refl _ s⟩

/-! ## The start relayed -/

theorem relays_iff (v : ViewState) : v.relays = true ↔ v ≠ .detached ∧ v ≠ .notReady := by cases v <;> decide

/-- Both ports at a sector start: A's view, then B's (R6). -/
def relayed (k : StartKind) (s : State) : State := relayStart k .b (relayStart k .a s)

theorem relayed_touches (k : StartKind) (s : State) :
    TouchesOnly [.view .a, .view .b, .port .a, .port .b] s (relayed k s) :=
  ((relayStart_touches k .a s).mono (by decide)).trans ((relayStart_touches k .b _).mono (by decide))

/-- A view that is DETACHED or NOT READY sees nothing of a sector start (R6). -/
theorem relayStart_unseen {k : StartKind} {c : Chan} {s : State} (h : (s.view c).st = .detached ∨ (s.view c).st = .notReady) :
    relayStart k c s = s := by
  have hquiet : ¬(s.view c).st.relays = true := fun hr => by
    obtain ⟨hdetached, hnotReady⟩ := (relays_iff _).1 hr
    exact h.elim hdetached hnotReady
  rw [relayStart, if_neg hquiet]

/-- Any other view sees its pulse, and has its slot protection mark judged (R6, R21). -/
theorem relayStart_seen {k : StartKind} {c : Chan} {s : State} (hd : (s.view c).st ≠ .detached)
    (hn : (s.view c).st ≠ .notReady) :
    relayStart k c s =
      setPort c { s.port c with pulse := some (.start k) }
        (setView c { s.view c with slotProt := slotProtection s (s.view c) } s) := by
  rw [relayStart, if_pos ((relays_iff _).2 ⟨hd, hn⟩)]

/-- What a channel sees of a sector start is a matter of its own view and port, the mailbox and the count (R6, R21). -/
theorem relayStart_local {k : StartKind} {c : Chan} {s t : State} (hv : t.view c = s.view c) (hp : t.port c = s.port c)
    (hm : t.mbox = s.mbox) (hw : t.watch = s.watch) :
    (relayStart k c t).view c = (relayStart k c s).view c ∧ (relayStart k c t).port c = (relayStart k c s).port c := by
  have hslot : slotProtection t (s.view c) = slotProtection s (s.view c) := by
    unfold slotProtection posted
    rw [hm, hw]
  unfold relayStart
  simp only [hv, hp, hslot]
  split
  · simp
  · exact ⟨hv, hp⟩

/-- One channel's part of the relay does not depend on the other's. -/
theorem relayed_at (k : StartKind) (c : Chan) (s : State) :
    (relayed k s).view c = (relayStart k c s).view c ∧ (relayed k s).port c = (relayStart k c s).port c := by
  cases c with
  | a => exact ⟨relayStart_touches k .b _ (.view .a) (by decide), relayStart_touches k .b _ (.port .a) (by decide)⟩
  | b =>
    have hother := relayStart_touches k .a s
    exact relayStart_local (hother (.view .b) (by decide)) (hother (.port .b) (by decide)) (hother .mbox (by decide))
      (hother .watch (by decide))

/-- With no transfer in hand the Map Store takes no part in a sector start (R58). -/
theorem transferStart_none {k : StartKind} {s : State} (h : s.map.xfer = .none) : transferStart k s = s := by
  simp only [transferStart, h]

/-- Settles O32: the monitor's count first, then the relay, which judges the slot marks by it. -/
theorem sectorStartCountsAndIsRelayed : Obligations.SectorStartCountsAndIsRelayed := by
  intro k w s hg hx hh
  let m := monitorStart k s
  let u := relayed k m
  have hmonitor : TouchesOnly [.watch, .ev] s m := monitorStart_touches k s
  have hrelay : TouchesOnly [.view .a, .view .b, .port .a, .port .b] m u := relayed_touches k m
  have hview : ∀ c, m.view c = s.view c := fun c => hmonitor (.view c) (by simp)
  have hport : ∀ c, m.port c = s.port c := fun c => hmonitor (.port c) (by simp)
  have hwatch : u.watch = m.watch := hrelay .watch (by decide)
  have hev : u.ev = m.ev := hrelay .ev (by decide)
  have hmap : u.map = s.map := Eq.trans (hrelay .map (by decide)) (hmonitor .map (by decide))
  have hexec : exec (.sectorStart k w) s = .next u := by
    rw [exec_sectorStart_open hg hh]
    exact congrArg _ (transferStart_none (s := u) (by rw [hmap, hx]))
  have hm := monitorStart_monitored k s
  refine ⟨u, hexec, ?_⟩
  simp only [Recorded, OnlyRaises, hwatch, hev]
  refine ⟨hm.watch, hm.index, hm.mark, hm.counted, hm.idle,
    fun hopen hs => ⟨fun hk => hm.early hk hopen hs, fun hk => hm.extra hk hopen hs⟩, fun c hc => ?unseen,
    fun c hd hn => ?seen, (hmonitor.mono (by decide)).trans (hrelay.mono (by decide)), hm.raises⟩
  case unseen =>
    obtain ⟨huview, huport⟩ := relayed_at k c m
    rw [relayStart_unseen (by rw [hview]; exact hc)] at huview huport
    exact ⟨huview.trans (hview c), huport.trans (hport c)⟩
  case seen =>
    obtain ⟨huview, huport⟩ := relayed_at k c m
    have hslot : slotProtection m (s.view c) =
        ((s.view c).targetIs .mailbox && decide ((s.view c).sel.head = .h0) && posted s m.watch.sector) := by
      unfold slotProtection posted
      rw [show m.mbox = s.mbox from hmonitor .mbox (by decide)]
    rw [relayStart_seen (by rw [hview]; exact hd) (by rw [hview]; exact hn), hview, hport, hslot] at huview huport
    exact ⟨huport.trans (by simp), huview.trans (by simp)⟩

end Sys2Proof.Machine
end

section
/-! What halts and the stop of the spindle leave beside the drive (R37, R83, R101, R147): `Subsides`, and the drive given
up after a halt at which the entries on volume R go. -/

namespace Sys2Proof.Machine

/-! ## What a halt and the views becoming unusable leave -/

/-- The internal queue, the images and volume F's protection mark stand, no transfer begins, no event is raised, and what
is gone of volume R stays gone (R83, R101, R147). -/
structure Subsides (s t : State) : Prop extends Lowered s t where
  queue : t.arb.queue = s.arb.queue
  map   : t.map = { s.map with labelState := t.map.labelState, xfer := t.map.xfer }
  xfer  : s.map.xfer = .none → t.map.xfer = .none
  label : s.map.labelState = .absent → t.map.labelState = .absent
  protF : t.drive.protF = s.drive.protF
  protR : s.drive.protR = false → t.drive.protR = false
  ev    : t.ev = s.ev

theorem Subsides.trans {s t u : State} (h : Subsides s t) (k : Subsides t u) : Subsides s u where
  toLowered := h.toLowered.trans k.toLowered
  queue := k.queue.trans h.queue
  map := by have hmap := k.map; rw [h.map] at hmap; exact hmap
  xfer hx := k.xfer (h.xfer hx)
  label hl := k.label (h.label hl)
  protF := k.protF.trans h.protF
  protR hp := k.protR (h.protR hp)
  ev := k.ev.trans h.ev

/-- What leaves the Map Store, the drive port and the event unit alone. -/
theorem Lowered.subsides {s t : State} (h : Lowered s t) (hq : t.arb.queue = s.arb.queue) (hm : t.map = s.map)
    (hd : t.drive = s.drive) (he : t.ev = s.ev) : Subsides s t :=
  ⟨h, hq, by rw [hm], by rw [hm]; exact id, by rw [hm]; exact id, by rw [hd], by rw [hd]; exact id, he⟩

theorem subsides_watch (s : State) (x : Watch) : Subsides s { s with watch := x } :=
  Lowered.subsides
    ⟨fun _ => .inl rfl, fun _ => id, rfl, fun _ => id, fun _ => id, .of_same rfl, (touches_watch s x).mono (by decide)⟩
    rfl rfl rfl rfl

theorem Subsides.refl (s : State) : Subsides s s := subsides_watch s s.watch

theorem setWatchState_subsides (k : WatchState) (s : State) : Subsides s (setWatchState k s) := subsides_watch s _

theorem halt_drive (s : State) :
    (halt s).drive = { s.drive with
      offered := (halt s).drive.offered, strobeTicks := (halt s).drive.strobeTicks, waiting := (halt s).drive.waiting } := by
  unfold halt haltPositioner
  exact (offerNext_decides _).drive

theorem halt_subsides (s : State) : Subsides s (halt s) where
  toLowered := (haltArbiter_lowered s).trans (haltPositioner_lowered _)
  queue := by rw [halt_arb]
  map := by rw [halt_map]
  xfer _ := by rw [halt_map]
  label h := by rw [halt_map]; exact h
  protF := by rw [halt_drive]
  protR h := by rw [halt_drive]; exact h
  ev := haltPositioner_touches (haltArbiter s) .ev (by decide)

theorem viewUnusable_touches (c : Chan) (s : State) : TouchesOnly [.view c, .arb, .ilock] s (viewUnusable c s) := by
  unfold viewUnusable
  split
  · exact .refl _ s
  · exact ((touches_arb s _).mono (by simp)).trans
      (((touches_view c _ _).mono (by simp)).trans ((touches_ilock _ _).mono (by simp)))

theorem viewUnusable_subsides (c : Chan) (s : State) : Subsides s (viewUnusable c s) := by
  have htouch := viewUnusable_touches c s
  obtain ⟨⟨_, harb⟩, -⟩ := viewUnusable_same c s
  exact (viewUnusable_lowered c s).subsides (by rw [harb]) (htouch .map (by simp)) (htouch .drive (by simp))
    (htouch .ev (by simp))

theorem remove_subsides (test : Entry → Bool) (s : State) : Subsides s { s with ilock := s.ilock.remove test } :=
  (remove_lowered test s).subsides rfl rfl rfl rfl

/-- Both views at a drive that becomes unusable (R37). -/
def bothUnusable (s : State) : State := viewUnusable .b (viewUnusable .a s)

theorem bothUnusable_subsides (s : State) : Subsides s (bothUnusable s) :=
  (viewUnusable_subsides .a s).trans (viewUnusable_subsides .b _)

/-- With no view left DEFERRED, the entries that go release nobody (R37, R125). -/
theorem removeEntries_bothUnusable (test : Entry → Bool) (s : State) :
    removeEntries test (bothUnusable s) = { bothUnusable s with ilock := (bothUnusable s).ilock.remove test } := by
  refine removeEntries_not_deferred test fun c => ?_
  rw [bothUnusable, bothUnusable_st]
  split <;> simp

theorem viewsUnusable_subsides (s : State) : Subsides s (viewsUnusable s) := by
  rw [viewsUnusable, ← bothUnusable, removeEntries_bothUnusable]
  exact (bothUnusable_subsides s).trans (remove_subsides _ _)

theorem holdHalt_subsides (s : State) : Subsides s (holdHalt s) :=
  ((subsides_watch s _).trans (halt_subsides _)).trans (viewsUnusable_subsides _)

/-! ## The stop of the spindle -/

/-- The prior label mark as a stop leaves it (R147). -/
def priorLabel (s : State) : Bool :=
  match s.map.labelState with
  | .valid => true
  | .unlabelled => false
  | .absent => s.watch.priorValid

theorem priorLabel_eq {s t : State} (hl : t.map.labelState = s.map.labelState)
    (hp : t.watch.priorValid = s.watch.priorValid) : priorLabel t = priorLabel s := by
  rw [priorLabel, priorLabel, hl, hp]

/-- What a stop leaves in Drive Watch, its state aside (R147; log 29). -/
theorem markStopped_watch (s : State) :
    (markStopped s).watch =
      { s.watch with priorValid := priorLabel s, labelOwed := true, sync := false, spinUp := true } := rfl

theorem markStopped_label (s : State) :
    (markStopped s).map.labelState = .absent ∧ (markStopped s).drive.protR = false := ⟨rfl, rfl⟩

theorem markStopped_subsides (s : State) : Subsides s (markStopped s) where
  view _ := .inl rfl
  request _ := id
  usage := rfl
  entries _ := id
  chain _ := id
  guards := .of_same rfl
  frame p hp := by
    cases p with
    | watch | map | drive => simp [Part.reached] at hp
    | _ => rfl
  queue := rfl
  map := rfl
  xfer := id
  label _ := rfl
  protF := rfl
  protR _ := rfl
  ev := rfl

theorem viewsSpunDown_eq (s : State) :
    viewsSpunDown s =
      { bothUnusable s with ilock := (bothUnusable s).ilock.remove fun e => decide (e.vol = .r) } :=
  removeEntries_bothUnusable _ s

theorem viewsSpunDown_subsides (s : State) : Subsides s (viewsSpunDown s) := by
  rw [viewsSpunDown_eq]
  exact (bothUnusable_subsides s).trans (remove_subsides _ _)

/-- No entry on volume R outlives a stop (R127). -/
theorem viewsSpunDown_list {s : State} {e : Entry} (h : e ∈ (viewsSpunDown s).ilock.list) : e.vol = .f := by
  rw [viewsSpunDown, removeEntries_list, List.mem_filter] at h
  cases hv : e.vol with
  | f => rfl
  | r => simp [hv] at h

theorem viewsSpunDown_touches (s : State) : TouchesOnly [.view .a, .view .b, .arb, .ilock] s (viewsSpunDown s) := by
  rw [viewsSpunDown_eq]
  exact ((viewUnusable_touches .a s).mono (by decide)).trans
    (((viewUnusable_touches .b _).mono (by decide)).trans ((touches_ilock _ _).mono (by decide)))

/-- At a stop the arbiter loses its request records alone, and every view ends DETACHED or NOT READY (R37). -/
theorem viewsSpunDown_views (s : State) :
    (∃ r, (viewsSpunDown s).arb = { s.arb with request := r })
      ∧ ∀ c, ((viewsSpunDown s).view c).st = if (s.view c).st = .detached then .detached else .notReady := by
  obtain ⟨⟨_, harbA⟩, -⟩ := viewUnusable_same .a s
  obtain ⟨⟨r, harbB⟩, -⟩ := viewUnusable_same .b (viewUnusable .a s)
  rw [harbA] at harbB
  rw [viewsSpunDown_eq]
  exact ⟨⟨r, harbB⟩, bothUnusable_st s⟩

/-- The drive is given up by a halt and a stop, if no view was detached on the way (R37, R83, R90, R147). -/
theorem down_of_stop {s t : State} (h : ∀ c, (s.view c).st ≠ .detached → (t.view c).st ≠ .detached) :
    Down s (viewsSpunDown (halt t)) := by
  obtain ⟨⟨_, harb⟩, hst⟩ := viewsSpunDown_views (halt t)
  have hpos : (viewsSpunDown (halt t)).pos = (halt t).pos := viewsSpunDown_touches _ .pos (by decide)
  have hviews : ∀ c, (halt t).view c = t.view c := fun c => halt_interrupted t (.view c) (by simp [Part.interrupted])
  rw [halt_arb] at harb
  rw [halt_pos] at hpos
  simp only [Down, harb, hpos, true_and]
  intro c hc
  rw [hst, hviews, if_neg (h c hc)]

theorem Down.setWatchState {s t : State} (h : Down s t) (k : WatchState) : Down s (setWatchState k t) :=
  h.of_same rfl rfl rfl

/-- A drive that is given up stays so at a stop (R151). -/
theorem Down.viewsSpunDown {s t : State} (h : Down s t) : Down s (viewsSpunDown t) := by
  obtain ⟨⟨_, harb⟩, hst⟩ := viewsSpunDown_views t
  have hpos : (Machine.viewsSpunDown t).pos = t.pos := viewsSpunDown_touches _ .pos (by decide)
  unfold Down at h ⊢
  rw [harb, hpos]
  obtain ⟨ha, hstamp, hheld, hclock, hpending, hp, hcyl, hsel, hrequest, hseek, hviews⟩ := h
  refine ⟨ha, hstamp, hheld, hclock, hpending, hp, hcyl, hsel, hrequest, hseek, fun c hc => ?_⟩
  rw [hst, hviews c hc]
  rfl

end Sys2Proof.Machine
end

section
/-! The drive dropped under what is up at its port (R60, R83, R113, R127): the passed gate cut, the transfer interrupted
and the internal queue emptied (`severed`). -/

namespace Sys2Proof.Machine

/-! ## Volume F's protection mark through the end of a gate -/

theorem Decides.protF {s t : State} (h : Decides s t) : t.drive.protF = s.drive.protF := by rw [h.drive]

theorem removeEntries_protF (test : Entry → Bool) (s : State) : (removeEntries test s).drive.protF = s.drive.protF := by
  unfold removeEntries
  simp only
  split <;> split <;> simp [(releaseTest_decides _ _).protF]

theorem overflowOldest_protF (c : Chan) (s : State) : (overflowOldest c s).drive.protF = s.drive.protF := by
  unfold overflowOldest
  split
  · rfl
  · exact removeEntries_protF _ _

theorem appendEntry_protF (c : Chan) (p : Place) (s : State) : (appendEntry c p s).drive.protF = s.drive.protF := by
  unfold appendEntry
  simp only
  split
  · exact (withdrawRequest_decides _ _).protF
  · rfl

theorem fullSharedWrite_protF (c : Chan) (p : Place) (s : State) :
    (fullSharedWrite c p s).drive.protF = s.drive.protF := by
  unfold fullSharedWrite
  split
  · rfl
  · split
    · split <;> rfl
    · split
      · exact appendEntry_protF c p _
      · exact (appendEntry_protF c p _).trans (overflowOldest_protF c s)

theorem reportInterlock_protF (g : GateRecord) (s : State) : (reportInterlock g s).drive.protF = s.drive.protF := by
  unfold reportInterlock
  split
  · exact fullSharedWrite_protF _ _ s
  · rfl

theorem dropDriveGates_protF (s : State) : (dropDriveGates s).drive.protF = s.drive.protF := (offerNext_decides _).protF

theorem dropped_protF (g : GateRecord) (w : Carried) (s : State) : (dropped g w s).drive.protF = s.drive.protF := by
  refine (dropDriveGates_protF _).trans ?_
  unfold relayData
  split <;> rfl

theorem endGate_protF (k : TearCause) (w : Carried) (s : State) : (endGate k w s).drive.protF = s.drive.protF := by
  cases hg : s.relay.gate with
  | none => simp only [endGate, hg]
  | some g =>
    rw [endGate_eq hg, (reportMailbox_posts _ _).frame .drive (by decide), reportInterlock_protF,
      (judgeGate_marks _ k _).frame .drive (by decide), dropped_protF]

/-! ## The internal queue emptied -/

theorem commitFails_touches (n : Nat) (p : PartAddr) (s : State) : TouchesOnly [.map, .ev] s (commitFails n p s) := by
  unfold commitFails
  split
  · exact ((touches_map s _).mono (by decide)).trans ((touches_ev _ _).mono (by decide))
  · exact .refl _ s

/-- A commit removed from the queue fails with some detail and address, a free value drawn for it or not (R83, R168). -/
theorem removedCommitFails_cases (w : Carried) (s : State) :
    removedCommitFails w s = s ∨ ∃ n p f, removedCommitFails w s = commitFails n p { s with free := f } := by
  unfold removedCommitFails
  split
  · right
    unfold runningCommitFails
    simp only
    split
    · split
      · exact ⟨_, _, s.free, rfl⟩
      · exact ⟨_, _, s.free, rfl⟩
    · exact ⟨_, _, s.free + 1, rfl⟩
    · exact ⟨_, _, s.free + 1, rfl⟩
    · exact ⟨_, _, s.free + 1, rfl⟩
    all_goals exact ⟨_, _, s.free, rfl⟩
  · split
    · exact .inr ⟨_, _, s.free, rfl⟩
    · exact .inl rfl

theorem removedCommitFails_touches (w : Carried) (s : State) :
    TouchesOnly [.map, .ev] s (removedCommitFails w s) := by
  rcases removedCommitFails_cases w s with h | ⟨n, p, f, h⟩ <;> rw [h]
  · exact .refl _ s
  · exact fun q hq => (commitFails_touches n p { s with free := f } q hq).trans (by cases q <;> rfl)

theorem removedCommitFails_map (w : Carried) (s : State) :
    (removedCommitFails w s).map = { s.map with commit := (removedCommitFails w s).map.commit } := by
  rcases removedCommitFails_cases w s with h | ⟨n, p, f, h⟩ <;> rw [h]
  rw [commitFails_map]

theorem removedCommitFails_guards (w : Carried) (s : State) : Guards s (removedCommitFails w s) := by
  rcases removedCommitFails_cases w s with h | ⟨n, p, f, h⟩ <;> rw [h]
  · exact .refl s
  · exact (Guards.of_same rfl : Guards s { s with free := f }).trans (commitFails_guards n p _)

theorem emptyQueue_arb (k : TearCause) (w : Carried) (s : State) :
    (emptyQueue k w s).arb = { s.arb with queue := [] } := by
  have harb : (removedCommitFails w (cutInternal k w s)).arb = s.arb :=
    Eq.trans (removedCommitFails_touches w _ .arb (by decide)) (cutInternal_touches k w s .arb (by decide))
  rw [← harb]
  rfl

/-- Of the Map Store the commit and the transfer in hand alone go with the queue (R83, R168). -/
theorem emptyQueue_map (k : TearCause) (w : Carried) (s : State) :
    (emptyQueue k w s).map = { s.map with commit := (emptyQueue k w s).map.commit, xfer := .none } := by
  have hmap := removedCommitFails_map w (cutInternal k w s)
  rw [show (cutInternal k w s).map = s.map from cutInternal_touches k w s .map (by decide)] at hmap
  exact congrArg (fun m : MapStore => { m with xfer := .none }) hmap

theorem cutInternal_protF (k : TearCause) (w : Carried) (s : State) :
    (cutInternal k w s).drive.protF = s.drive.protF := by
  have hshow : ∀ v, (showInternalWrite v w s).drive.protF = s.drive.protF := fun v => by
    unfold showInternalWrite
    split <;> rfl
  unfold cutInternal
  split
  · rename_i v _
    simp only
    split
    · exact (dropDriveGates_protF _).trans (hshow v)
    · rw [addTorn_touches _ _ .drive (by decide)]
      exact (dropDriveGates_protF _).trans (hshow v)
  · exact dropDriveGates_protF s
  all_goals rfl

theorem emptyQueue_protF (k : TearCause) (w : Carried) (s : State) : (emptyQueue k w s).drive.protF = s.drive.protF := by
  have hdrive : (removedCommitFails w (cutInternal k w s)).drive = (cutInternal k w s).drive :=
    removedCommitFails_touches w _ .drive (by decide)
  exact (congrArg (·.protF) hdrive).trans (cutInternal_protF k w s)

/-- With no internal gate up, what a gate's end has left stands while the queue is emptied (R60, R83). -/
theorem emptyQueue_guards {s : State} (h : s.map.xfer = .none ∨ s.map.xfer.begun) (k : TearCause) (w : Carried) :
    Guards s (emptyQueue k w s) := by
  have hremoved : Guards s (removedCommitFails w s) := removedCommitFails_guards w s
  rw [emptyQueue, cutInternal_idle h]
  exact hremoved.trans (.of_same rfl)

/-! ## The drive dropped -/

/-- What is up at the drive port when the drive drops is cut, and the internal queue emptied (R83, R113, R147, R151). -/
def severed (w : Carried) (s : State) : State := emptyQueue .driveDropped w (endGate .driveDropped w s)

theorem severed_moves (w : Carried) (s : State) : Moves Part.gated s (severed w s) :=
  (endGate_moves _ w s).trans (emptyQueue_moves _ w _).toGated

theorem severed_steady (w : Carried) (s : State) : Steady s (severed w s) :=
  (endGate_steady _ w s).trans (emptyQueue_steady _ w _)

theorem severed_watch (w : Carried) (s : State) : (severed w s).watch = s.watch :=
  (severed_moves w s).frame .watch (by decide)

theorem severed_map (w : Carried) (s : State) :
    (severed w s).map = { s.map with commit := (severed w s).map.commit, xfer := .none } := by
  have hmap := emptyQueue_map .driveDropped w (endGate .driveDropped w s)
  rw [(endGate_begins .driveDropped w s).map] at hmap
  exact hmap

theorem severed_queue (w : Carried) (s : State) : (severed w s).arb.queue = [] := by rw [severed, emptyQueue_arb]

theorem severed_protF (w : Carried) (s : State) : (severed w s).drive.protF = s.drive.protF :=
  (emptyQueue_protF _ w _).trans (endGate_protF _ w s)

/-- Nothing is charged; a gate's end reaches the usage counts by a report to the Interlock Unit alone (R84, R119). -/
theorem severed_usage {w : Carried} {s : State} (h : ∀ g, s.relay.gate = some g → ¬FullShared g w) :
    (severed w s).arb.usage = s.arb.usage := by
  have hgate : (endGate .driveDropped w s).arb = s.arb := by
    cases hg : s.relay.gate with
    | none => simp only [endGate, hg]
    | some g => exact (endGate_unreported hg (h g hg) _).1
  rw [severed, emptyQueue_arb, hgate]

/-- A passed gate is judged, and down at the drive port (R109, R113). -/
theorem severed_judged {g : GateRecord} {s : State} (hg : s.relay.gate = some g) (hx : s.map.xfer = .none) (w : Carried) :
    GateJudged .driveDropped g w s (severed w s) ∧ (severed w s).drive.readGate = false
      ∧ (severed w s).drive.writeGate = false := by
  have hended := endGate_ended hg .driveDropped w
  have hidle := (endGate_begins .driveDropped w s).xfer
  rw [hx] at hidle
  have hguards : Guards (endGate .driveDropped w s) (severed w s) := emptyQueue_guards hidle _ w
  exact ⟨hended.judged.keep hguards, hguards.read.trans hended.readLow, hguards.write.trans hended.writeLow⟩

/-! ## A fall of READY, and a loss of rotation -/

/-- READY taken as fallen: what precedes the spin-down, or its effects in a supply hold (R143, R144). -/
structure ReadyGone (s t : State) : Prop where
  watch  : t.watch = { s.watch with readyAccepted := false, readyDebounce := 0 }
  protF  : t.drive.protF = s.drive.protF
  raises : Raises [] s t
  frame  : TouchesOnly [.drive, .watch, .ev] s t

/-- The part with READY low at the drive port, and taken as fallen (R15, R144). -/
def readyFallen (s : State) : State := readyLost { s with drive := { s.drive with ready := false } }

theorem readyFallen_gone (s : State) : ReadyGone s (readyFallen s) :=
  ⟨rfl, rfl, .of_ev _ rfl, ((touches_drive s _).mono (by decide)).trans ((touches_watch _ _).mono (by decide))⟩

theorem readyLost_gone (s : State) : ReadyGone s (readyLost s) :=
  ⟨rfl, rfl, .of_ev _ rfl, (touches_watch s _).mono (by decide)⟩

/-- The part with E15 raised, and READY taken as fallen (R143). -/
def rotationGone (s : State) : State := readyLost (raiseSole .rotationLost .absent s.watch.sector.val s)

theorem rotationGone_gone (s : State) : ReadyGone s (rotationGone s) :=
  ⟨rfl, rfl, (raiseSole_raises [] _ _ _ s).trans (.of_ev _ rfl),
    ((touches_ev s _).mono (by decide)).trans ((touches_watch _ _).mono (by decide))⟩

theorem exec_readyFall {w : Carried} {s : State} (hs : s.watch.st ≠ .spinningUp) (ha : s.watch.readyAccepted = true) :
    exec (.readyFall w) s = .next (acceptedFall w (readyFallen s)) := by
  simp only [exec, execReadyFall, hs, ha, if_false, if_true]
  rfl

theorem exec_rotationLost_judged {w : Carried} {s : State} (hg : s.watch.gap = 5)
    (hs : s.watch.st ∈ [WatchState.readingMap, .readingLabel, .running]) :
    exec (.rotationLost w) s = .next (spinDown w (rotationGone s)) := by
  simp only [exec, execRotationLost, hg, le_refl, if_true, (judgesRotation_iff _).2 hs]
  rfl

/-! ## What a spin-down shares with its effects in a supply hold -/

/-- The drive is cut off and the spindle at rest: of the label nothing is left, the queue is empty, nothing is charged, and a
passed gate is judged (R83, R113, R127, R147, R151). -/
structure Stopped (w : Carried) (s u : State) : Prop where
  map    : u.map = { s.map with labelState := .absent, commit := u.map.commit, xfer := .none }
  protR  : u.drive.protR = false
  protF  : u.drive.protF = s.drive.protF
  queue  : u.arb.queue = []
  usage  : (∀ g, s.relay.gate = some g → ¬FullShared g w) → u.arb.usage = s.arb.usage
  judged : ∀ g, s.relay.gate = some g → s.map.xfer = .none →
    GateJudged .driveDropped g w s u ∧ u.drive.readGate = false ∧ u.drive.writeGate = false
  list   : ∀ e ∈ u.ilock.list, e.vol = .f
  frame  : TouchesOnly Part.wide s u

/-- What has been severed stays so through halts and a stop of the spindle. -/
theorem Subsides.stopped {w : Carried} {s u : State} (h : Subsides (severed w s) u) (hl : u.map.labelState = .absent)
    (hp : u.drive.protR = false) (he : ∀ e ∈ u.ilock.list, e.vol = .f) : Stopped w s u where
  map := by
    have hmap := h.map
    rw [severed_map, hl, h.xfer (by rw [severed_map])] at hmap
    rw [hmap]
  protR := hp
  protF := h.protF.trans (severed_protF w s)
  queue := h.queue.trans (severed_queue w s)
  usage hf := h.usage.trans (severed_usage hf)
  judged g hg hx := by
    obtain ⟨hjudged, hread, hwrite⟩ := severed_judged hg hx w
    exact ⟨hjudged.keep h.guards, h.guards.read.trans hread, h.guards.write.trans hwrite⟩
  list := he
  frame := ((severed_moves w s).frame.mono (by decide)).trans (h.frame.mono (by decide))

/-- The same of the part before READY was taken as fallen. -/
theorem Stopped.before {w : Carried} {s t u : State} (h : Stopped w t u) (hg : ReadyGone s t) : Stopped w s u := by
  have hmap : t.map = s.map := hg.frame .map (by decide)
  have hrelay : t.relay = s.relay := hg.frame .relay (by decide)
  have harb : t.arb = s.arb := hg.frame .arb (by decide)
  have hview : ∀ c, t.view c = s.view c := fun c => hg.frame (.view c) (by simp)
  obtain ⟨umap, uprotR, uprotF, uqueue, uusage, ujudged, ulist, uframe⟩ := h
  rw [hmap] at umap
  rw [hrelay, harb] at uusage
  rw [hrelay, hmap] at ujudged
  refine ⟨umap, uprotR, uprotF.trans hg.protF, uqueue, uusage, fun g hgate hx => ?_, ulist,
    (hg.frame.mono (by decide)).trans uframe⟩
  obtain ⟨hjudged, hlow⟩ := ujudged g hgate hx
  exact ⟨hjudged.before (by rw [hrelay]) (hg.frame .uptime (by decide)) hmap (fun d => by rw [hview]) hg.raises, hlow⟩

/-! ## A spin-down -/

theorem enterSpunDown_eq {s : State} (h : ¬(s.watch.st = .driveFault ∧ s.watch.warnAccepted = true)) :
    enterSpunDown s = setWatchState .spunDown s := if_neg h

/-- The halt of a spin-down, and its stop of the views (R83, R147). -/
theorem haltedDown_rests (m : State) :
    Subsides m (viewsSpunDown (halt m)) ∧ (viewsSpunDown (halt m)).watch = m.watch :=
  ⟨(halt_subsides m).trans (viewsSpunDown_subsides _),
    Eq.trans (viewsSpunDown_touches _ .watch (by decide)) (halt_interrupted m .watch (by decide))⟩

theorem spinDown_eq (w : Carried) (s : State) :
    spinDown w s = enterSpunDown (viewsSpunDown (halt (markStopped (severed w s)))) := rfl

/-- A spin-down, where no supply hold follows at once (R113, R147, R153). -/
theorem spinDown_effect (w : Carried) {s : State} (h : ¬(s.watch.st = .driveFault ∧ s.watch.warnAccepted = true)) :
    (spinDown w s).watch = { s.watch with
        st := .spunDown, priorValid := priorLabel s, labelOwed := true, sync := false, spinUp := true }
      ∧ Stopped w s (spinDown w s) ∧ Down s (spinDown w s) := by
  have hprior : priorLabel (severed w s) = priorLabel s := priorLabel_eq (by rw [severed_map]) (by rw [severed_watch])
  have hmark := markStopped_watch (severed w s)
  have hmarked := markStopped_subsides (severed w s)
  obtain ⟨hlabel, hprotR⟩ := markStopped_label (severed w s)
  have hattached : ∀ c, (s.view c).st ≠ .detached → ((markStopped (severed w s)).view c).st ≠ .detached :=
    (severed_steady w s).attached
  rw [hprior, severed_watch] at hmark
  rw [spinDown_eq]
  generalize markStopped (severed w s) = m at hmark hmarked hlabel hprotR hattached ⊢
  obtain ⟨hrest, hwatch⟩ := haltedDown_rests m
  have hdown : Down s (viewsSpunDown (halt m)) := down_of_stop hattached
  have hlist : ∀ e ∈ (viewsSpunDown (halt m)).ilock.list, e.vol = .f := fun _ he => viewsSpunDown_list he
  generalize viewsSpunDown (halt m) = v at hrest hwatch hdown hlist ⊢
  rw [hmark] at hwatch
  rw [enterSpunDown_eq (by rw [hwatch]; exact h)]
  exact ⟨by rw [setWatchState_watch, hwatch],
    ((hmarked.trans hrest).trans (setWatchState_subsides _ v)).stopped (hrest.label hlabel) (hrest.protR hprotR) hlist,
    hdown.setWatchState _⟩

/-- What brings a spin-down takes READY as fallen first, a loss of rotation with E15 (R143, R144, R146, R147). -/
theorem exec_spinDown {w : Carried} {s : State} {i : Instr}
    (h : (i = .readyFall w ∧ s.watch.readyAccepted = true
        ∧ (s.watch.st ∈ [WatchState.calibrating, .readingMap, .readingLabel, .running]
          ∨ (s.watch.st = .driveFault ∧ s.watch.warnAccepted = false)))
      ∨ (i = .rotationLost w ∧ s.watch.gap = 5 ∧ s.watch.st ∈ [WatchState.readingMap, .readingLabel, .running])) :
    ∃ t, exec i s = .next (spinDown w t) ∧ ReadyGone s t ∧ ¬(s.watch.st = .driveFault ∧ s.watch.warnAccepted = true)
      ∧ (i = .rotationLost w → Open (.sole .rotationLost) s →
          Recorded (.sole .rotationLost) s.watch.sector.val t) := by
  rcases h with ⟨rfl, ha, hs⟩ | ⟨rfl, hg, hs⟩
  · have hkind : s.watch.st ≠ .spinningUp ∧ ¬(s.watch.st = .driveFault ∧ s.watch.warnAccepted = true)
        ∧ acceptedFall w (readyFallen s) = spinDown w (readyFallen s) := by
      have hst : (readyFallen s).watch.st = s.watch.st := rfl
      unfold acceptedFall
      rw [hst]
      rcases hs with hs | ⟨hs, hw⟩
      · simp only [List.mem_cons, List.not_mem_nil, or_false] at hs
        rcases hs with hs | hs | hs | hs <;> simp [hs]
      · simp [hs, hw]
    obtain ⟨hne, hfault, hfall⟩ := hkind
    exact ⟨_, (exec_readyFall hne ha).trans (by rw [hfall]), readyFallen_gone s, hfault, nofun⟩
  · have hfault : s.watch.st ≠ .driveFault := fun hf => by simp [hf] at hs
    exact ⟨_, exec_rotationLost_judged hg hs, rotationGone_gone s, fun hf => hfault hf.1,
      fun _ hopen => recorded_raise _ _ _ _ s hopen⟩

/-- Settles O33: READY taken as fallen, then the spin-down. -/
theorem spinDownTakesDriveDown : Obligations.SpinDownTakesDriveDown := by
  intro w s i h
  obtain ⟨t, hexec, hgone, hfault, hrecord⟩ := exec_spinDown h
  have htwatch := hgone.watch
  have hmap : t.map = s.map := hgone.frame .map (by decide)
  have hview : ∀ c, t.view c = s.view c := fun c => hgone.frame (.view c) (by simp)
  obtain ⟨uwatch, hstopped, hdown⟩ := spinDown_effect w (s := t) (by rw [htwatch]; exact hfault)
  have hprior : priorLabel t = priorLabel s := priorLabel_eq (by rw [hmap]) (by rw [htwatch])
  rw [hprior, htwatch] at uwatch
  have hstopped' := hstopped.before hgone
  have hevents := (spinDown_moves w t).events
  simp only [Down, hview] at hdown
  generalize spinDown w t = u at hexec uwatch hstopped' hdown hevents
  obtain ⟨umap, uprotR, uprotF, uqueue, uusage, ujudged, ulist, uframe⟩ := hstopped'
  exact ⟨u, hexec, by rw [uwatch], by rw [uwatch], by rw [uwatch], by rw [uwatch], by rw [uwatch], by rw [uwatch],
    by rw [umap], by rw [umap], by rw [umap], uprotR, uprotF, by rw [uwatch]; rfl, uqueue, uusage, ujudged, ulist, hdown,
    uframe.mono (by decide), fun hi hopen => (hrecord hi hopen).keep hevents⟩

end Sys2Proof.Machine
end

section
/-! The supply hold (R112, R145, R150, R151): its entry, with or without a halt at once, an accepted fall of READY or a
loss of rotation within it, and its end. -/

namespace Sys2Proof.Machine

/-! ## The entry -/

/-- The part with a supply warning accepted, E29 raised (R145). -/
def warned (s : State) : State :=
  raiseSole .supplyWarning .absent s.watch.st.code
    { s with warning := true, watch := { s.watch with warnAccepted := true, clearDebounce := 0 } }

/-- The part in SUPPLY HOLD, before the cut of a read and the halt (R150). -/
def inHold (s : State) : State :=
  { s with watch := { s.watch with st := .supplyHold, spinOwed := spinOwedAtEntry s.watch } }

/-- What a read that is up leaves where the hold cuts it, its view back in POSITIONED (R112). -/
def readCut (w : Carried) (s : State) : State := if readActive s then endGatePositioned .shortWrite w s else s

theorem enterHold_eq (w : Carried) (s : State) :
    enterHold w s =
      if gateUp (readCut w (inHold s)) then
        { readCut w (inHold s) with watch := { (readCut w (inHold s)).watch with writeEndWait := true } }
      else holdHalt (readCut w (inHold s)) := rfl

theorem exec_supplyWarning {w : Carried} {s : State} (hw : s.watch.warnAccepted = false) (hh : s.watch.st ≠ .supplyHold)
    (hf : s.watch.st ≠ .driveFault) : exec (.supplyWarning w) s = .next (enterHold w (warned s)) := by
  simp only [exec, execSupplyWarning, acceptWarning, hw, hh, hf, or_self, if_false, Bool.false_eq_true]
  rfl

theorem spinOwedAtEntry_iff (u : Watch) :
    spinOwedAtEntry u = true ↔
      u.st = .spunDown ∨ u.st = .spinningUp ∨ (u.st = .calibrating ∧ u.readyAccepted = false) := by
  cases h : u.st <;> simp [spinOwedAtEntry, h]

theorem readActive_eq_false {s : State} (h : (∃ g, s.relay.gate = some g ∧ g.kind ≠ .read) ∨ s.relay.gate = none) :
    readActive s = false := by
  rcases h with ⟨g, hg, hk⟩ | hg
  · simp [readActive, hg, hk]
  · simp [readActive, hg]

theorem readCut_moves (w : Carried) (s : State) : Moves Part.gated s (readCut w s) := by
  unfold readCut
  split
  · exact endGatePositioned_moves _ w s
  · exact .refl _ s

/-- The entry to SUPPLY HOLD sets Drive Watch's state, the spin cycle owed and the wait for a write's end (R150). -/
theorem enterHold_watch (w : Carried) (s : State) :
    (enterHold w s).watch = { (inHold s).watch with writeEndWait := (enterHold w s).watch.writeEndWait } := by
  have hcut : (readCut w (inHold s)).watch = (inHold s).watch := (readCut_moves w _).frame .watch (by decide)
  rw [enterHold_eq]
  split
  · rw [hcut]
  · obtain ⟨hwatch, -⟩ := holdHalt_completes (readCut w (inHold s))
    rw [hwatch, hcut]

/-- The part in SUPPLY HOLD on a warning just accepted. -/
def holdBegun (s : State) : State := inHold (warned s)

theorem holdBegun_touches (s : State) : TouchesOnly [.watch, .warning, .ev] s (holdBegun s) := by
  intro p hp
  cases p with
  | watch | warning | ev => simp at hp
  | _ => rfl

theorem warning_waits {w : Carried} {s : State} (hr : readActive s = false) (hup : gateUp s = true) :
    enterHold w (warned s) =
      { holdBegun s with watch := { (holdBegun s).watch with writeEndWait := true } } := by
  have hcut : readCut w (holdBegun s) = holdBegun s := if_neg (by rw [show readActive (holdBegun s) = false from hr]; simp)
  rw [enterHold_eq, ← holdBegun, hcut]
  exact if_pos hup

theorem warning_halts {w : Carried} {s : State} (hlow : gateUp (readCut w (holdBegun s)) = false) :
    enterHold w (warned s) = holdHalt (readCut w (holdBegun s)) := by
  rw [enterHold_eq, ← holdBegun]
  exact if_neg (by rw [hlow]; simp)

/-! ## The halt at the entry -/

/-- A hold halted: the internal queue kept, nothing charged, the drive given up (R150). -/
structure HoldHalted (s u : State) : Prop where
  queue : u.arb.queue = s.arb.queue
  usage : u.arb.usage = s.arb.usage
  wait  : u.watch.writeEndWait = false
  down  : Down s u

theorem holdHalt_halted {s t : State} (hq : t.arb.queue = s.arb.queue) (hu : t.arb.usage = s.arb.usage)
    (ha : ∀ c, (s.view c).st ≠ .detached → (t.view c).st ≠ .detached) : HoldHalted s (holdHalt t) := by
  obtain ⟨hwatch, -, hqueue, -⟩ := holdHalt_completes t
  exact ⟨hqueue.trans hq, (holdHalt_subsides t).usage.trans hu, by rw [hwatch], down_of_halt ha⟩

/-- What a read that the hold cuts leaves at its port, the drive port and the arbiter (R106, R112). -/
structure ReadCut (c : Chan) (g : GateRecord) (w : Carried) (s t : State) : Prop where
  gate     : t.relay.gate = none
  readLow  : t.drive.readGate = false
  writeLow : t.drive.writeGate = false
  data     : (t.port c).readData = readDataRelayed g ((((s.view c).target).map (·.logical)).getD 0) w
  queue    : t.arb.queue = s.arb.queue
  usage    : t.arb.usage = s.arb.usage
  attached : ∀ d, (s.view d).st ≠ .detached → (t.view d).st ≠ .detached
  frame    : TouchesOnly (.port c :: .mbox :: Part.reached) s t

/-- A read that drops has its words on READ DATA at its port (R106). -/
theorem relayData_readData {g : GateRecord} (hr : g.kind = .read) (w : Carried) (s : State) :
    ((relayData g w s).port g.chan).readData =
      readDataRelayed g ((((s.view g.chan).target).map (·.logical)).getD 0) w := by
  rw [relayData, if_pos hr]
  simp only [setPort_port, if_true]

theorem dropped_readData {g : GateRecord} (hr : g.kind = .read) (w : Carried) (s : State) :
    ((dropped g w s).port g.chan).readData =
      readDataRelayed g ((((s.view g.chan).target).map (·.logical)).getD 0) w :=
  (congrArg Port.readData (dropDriveGates_touches _ (.port g.chan) (by simp))).trans
    (relayData_readData (g := g.carry w) hr w _)

theorem endGatePositioned_read {g : GateRecord} {s : State} (hg : s.relay.gate = some g) (hr : g.kind = .read)
    (hv : (s.view g.chan).st = .transferring) (hm : ¬EndMarked s g.chan) (k : TearCause) (w : Carried) :
    ReadCut g.chan g w s (endGatePositioned k w s) := by
  have hfull : ¬FullShared g w := fun hf => hf.1 hr
  have hended := endGate_ended hg k w
  obtain ⟨hgate, -⟩ := hended.judged
  obtain ⟨harb, hst⟩ := endGate_unreported hg hfull k
  have hport : (endGate k w s).port g.chan = (dropped g w s).port g.chan :=
    (endGate_marks hg hfull k).frame (.port g.chan) (by simp)
  have hdata := dropped_readData hr w s
  have hattached := (endGatePositioned_wayBack hg k w).attached
  rw [← hport] at hdata
  rw [endGatePositioned_plain hg (by rw [hst]; exact hv) (by rw [EndMarked, harb]; exact hm)] at hattached ⊢
  have hframe := hended.frame.trans
    ((repositioned_touches g.chan (endGate k w s)).mono (by cases g.chan <;> decide))
  exact ⟨hgate, hended.readLow, hended.writeLow, hdata, by rw [← harb]; rfl, by rw [← harb]; rfl, hattached, hframe⟩

/-- A warning accepted while a read is up (R112, R150). -/
theorem readCut_holdBegun {c : Chan} {g : GateRecord} {s : State} (hp : PlainGate s c g) (hr : g.kind = .read)
    (w : Carried) : ReadCut c g w (holdBegun s) (readCut w (holdBegun s)) := by
  obtain ⟨hg, rfl, hv, hm, -⟩ := hp
  have hactive : readActive (holdBegun s) = true := by
    have hgate : (holdBegun s).relay.gate = some g := hg
    simp [readActive, hgate, hr]
  rw [readCut, if_pos hactive]
  exact endGatePositioned_read (s := holdBegun s) hg hr hv hm .shortWrite w

/-! ## The drive lost within a hold -/

/-- What was up is cut off; a hold that waited for a write's end is halted by it (R112, R151). -/
def severedInHold (w : Carried) (s : State) : State :=
  if s.watch.writeEndWait then holdHalt (severed w s) else severed w s

/-- The part with a spin cycle owed (R151). -/
def spinOwing (s : State) : State := { s with watch := { s.watch with spinOwed := true } }

theorem fallInHold_eq (w : Carried) (s : State) :
    fallInHold w s = viewsSpunDown (markStopped (spinOwing (severedInHold w s))) := rfl

theorem severedInHold_subsides (w : Carried) (s : State) : Subsides (severed w s) (severedInHold w s) := by
  unfold severedInHold
  split
  · exact holdHalt_subsides _
  · exact .refl _

theorem severedInHold_watch (w : Carried) (s : State) :
    (severedInHold w s).watch = { s.watch with writeEndWait := false } := by
  have hsevered := severed_watch w s
  unfold severedInHold
  cases h : s.watch.writeEndWait with
  | true =>
    obtain ⟨hwatch, -⟩ := holdHalt_completes (severed w s)
    rw [if_pos rfl, hwatch, hsevered]
  | false => rw [if_neg (by simp), hsevered, ← h]

theorem severedInHold_label (w : Carried) (s : State) : (severedInHold w s).map.labelState = s.map.labelState := by
  have hlabel : (severed w s).map.labelState = s.map.labelState := by rw [severed_map]
  unfold severedInHold
  split
  · obtain ⟨-, hmap, -⟩ := holdHalt_completes (severed w s)
    rw [hmap]
    exact hlabel
  · exact hlabel

theorem severedInHold_down {w : Carried} {s : State} (h : s.watch.writeEndWait = true) :
    Down s (severedInHold w s) := by
  rw [severedInHold, if_pos h]
  exact down_of_halt (severed_steady w s).attached

theorem Down.spinOwing {s t : State} (h : Down s t) : Down s (spinOwing t) := h.of_same rfl rfl rfl

theorem Down.markStopped {s t : State} (h : Down s t) : Down s (markStopped t) := h.of_same rfl rfl rfl

theorem spinOwing_subsides (s : State) : Subsides s (spinOwing s) := subsides_watch s _

/-- A fall of READY, or a loss of rotation, within a hold (R147, R151). -/
theorem fallInHold_effect (w : Carried) (s : State) :
    (fallInHold w s).watch = { s.watch with
        spinOwed := true, priorValid := priorLabel s, labelOwed := true, sync := false, spinUp := true,
        writeEndWait := false }
      ∧ Stopped w s (fallInHold w s) ∧ (s.watch.writeEndWait = true → Down s (fallInHold w s))
      ∧ (fallInHold w s).ev = (severed w s).ev := by
  have hcut := severedInHold_subsides w s
  have hcutWatch := severedInHold_watch w s
  have hcutLabel := severedInHold_label w s
  have hcutDown := fun h => severedInHold_down (w := w) (s := s) h
  rw [fallInHold_eq]
  generalize severedInHold w s = x at hcut hcutWatch hcutLabel hcutDown ⊢
  have howing : (spinOwing x).watch = { s.watch with writeEndWait := false, spinOwed := true } :=
    congrArg (fun v : Watch => { v with spinOwed := true }) hcutWatch
  have hprior : priorLabel (spinOwing x) = priorLabel s := priorLabel_eq hcutLabel (by rw [howing])
  have hmark := markStopped_watch (spinOwing x)
  have hmarked := (hcut.trans (spinOwing_subsides x)).trans (markStopped_subsides _)
  obtain ⟨hlabel, hprotR⟩ := markStopped_label (spinOwing x)
  have hdown := fun h => (hcutDown h).spinOwing.markStopped
  rw [hprior, howing] at hmark
  generalize Machine.markStopped (spinOwing x) = m at hmark hmarked hlabel hprotR hdown ⊢
  have hrest := viewsSpunDown_subsides m
  have hwatch : (viewsSpunDown m).watch = m.watch := viewsSpunDown_touches m .watch (by decide)
  have hall := hmarked.trans hrest
  exact ⟨by rw [hwatch, hmark], hall.stopped (hrest.label hlabel) (hrest.protR hprotR) fun _ he => viewsSpunDown_list he,
    fun h => (hdown h).viewsSpunDown, hall.ev⟩

theorem exec_fallInHold {w : Carried} {s : State} {i : Instr} (hs : s.watch.st = .supplyHold)
    (ha : s.watch.readyAccepted = true) (hi : i = .readyFall w ∨ (i = .rotationLost w ∧ s.watch.gap = 5)) :
    ∃ t, exec i s = .next (fallInHold w t) ∧ ReadyGone s t ∧ t.ev = s.ev := by
  rcases hi with rfl | ⟨rfl, hg⟩
  · have hfall : acceptedFall w (readyFallen s) = fallInHold w (readyFallen s) := by
      unfold acceptedFall
      rw [show (readyFallen s).watch.st = .supplyHold from hs]
    exact ⟨_, (exec_readyFall (by rw [hs]; decide) ha).trans (by rw [hfall]), readyFallen_gone s, rfl⟩
  · refine ⟨readyLost s, ?_, readyLost_gone s, rfl⟩
    simp [exec, execRotationLost, hg, losesInHold, WatchState.judgesRotation, hs, ha]

/-! ## The end of a hold -/

/-- The part with the clearing of a warning accepted (R145). -/
def cleared (s : State) : State := { s with watch := { s.watch with warnAccepted := false } }

theorem exec_supplyClear {s : State} (hw : s.watch.warnAccepted = true) (hi : s.warning = false)
    (hd : s.watch.clearDebounce = 100) (hs : s.watch.st = .supplyHold) :
    exec .supplyClearAccepted s = .next (leaveHold (cleared s)) := by
  have hdue : clearDue s = true := (clearDue_iff s).2 ⟨hw, hi, hd.ge⟩
  simp only [exec, execSupplyClearAccepted, hdue, hs, if_true]
  rfl

theorem leaveHold_ready {s : State} (h : s.watch.readyAccepted = true) : leaveHold s = enterCalibrating s := if_pos h

theorem leaveHold_unready {s : State} (h : s.watch.readyAccepted = false) :
    leaveHold s = setWatchState (if s.drive.ready then .spinningUp else .spunDown) s := if_neg (by simp [h])

/-! ## The hold, from its entry to its end -/

/-- The entry to a hold, with or without a halt at once (R112, R145, R150). -/
theorem supplyWarning_entered (w : Carried) (s : State) :
    let u := enterHold w (warned s)
    (u.watch.st = .supplyHold ∧ u.watch.warnAccepted = true ∧ u.watch.clearDebounce = 0
        ∧ (u.watch.spinOwed = true ↔ s.watch.st = .spunDown ∨ s.watch.st = .spinningUp
            ∨ (s.watch.st = .calibrating ∧ s.watch.readyAccepted = false)))
      ∧ u.warning = true
      ∧ (Open (.sole .supplyWarning) s → Recorded (.sole .supplyWarning) s.watch.st.code u) := by
  have hmoves := enterHold_moves w (warned s)
  refine ⟨?watch, hmoves.frame .warning (by decide), fun hopen => ?record⟩
  case watch =>
    rw [enterHold_watch]
    exact ⟨rfl, rfl, rfl, spinOwedAtEntry_iff (warned s).watch⟩
  case record => exact Recorded.keep (recorded_raise _ _ _ _ _ hopen) hmoves.events

/-- With no gate up the halt comes at once, and ends no more than a transfer in hand (R150). -/
theorem supplyWarning_idle (w : Carried) {s : State} (hg : s.relay.gate = none) (hr : s.drive.readGate = false)
    (hw : s.drive.writeGate = false) :
    let u := enterHold w (warned s)
    HoldHalted s u ∧ u.map = { s.map with xfer := .none } ∧ TouchesOnly (.watch :: .warning :: Part.reached) s u := by
  have hcut : readCut w (holdBegun s) = holdBegun s :=
    if_neg (by rw [readActive_eq_false (s := holdBegun s) (.inr hg)]; simp)
  have hbegun := holdBegun_touches s
  have harb : (holdBegun s).arb = s.arb := hbegun .arb (by decide)
  have hmap : (holdBegun s).map = s.map := hbegun .map (by decide)
  have hview : ∀ c, (holdBegun s).view c = s.view c := fun c => hbegun (.view c) (by simp)
  have hlow : gateUp (holdBegun s) = false := (not_gateUp_iff (holdBegun s)).2 ⟨hr, hw⟩
  rw [warning_halts (by rw [hcut]; exact hlow), hcut]
  generalize holdBegun s = t at hbegun harb hmap hview ⊢
  obtain ⟨-, humap, -⟩ := holdHalt_completes t
  exact ⟨holdHalt_halted (by rw [harb]) (by rw [harb]) fun c hc => by rw [hview]; exact hc, by rw [humap, hmap],
    (hbegun.mono (by decide)).trans ((holdHalt_subsides t).frame.mono (by decide))⟩

/-- A passed read is cut, and the halt follows at once (R112, R150). -/
theorem supplyWarning_read {c : Chan} {g : GateRecord} {s : State} (hp : PlainGate s c g) (hr : g.kind = .read)
    (w : Carried) :
    let u := enterHold w (warned s)
    HoldHalted s u ∧ u.relay.gate = none ∧ u.drive.readGate = false
      ∧ (u.port c).readData = readDataRelayed g ((((s.view c).target).map (·.logical)).getD 0) w
      ∧ TouchesOnly (.port c :: .mbox :: .watch :: .warning :: Part.reached) s u := by
  have hbegun := holdBegun_touches s
  have harb : (holdBegun s).arb = s.arb := hbegun .arb (by decide)
  have hview : ∀ d, (holdBegun s).view d = s.view d := fun d => hbegun (.view d) (by simp)
  obtain ⟨hgate, hread, hwrite, hdata, hqueue, husage, hattached, hframe⟩ := readCut_holdBegun hp hr w
  rw [hview] at hdata
  rw [harb] at hqueue husage
  simp only [hview] at hattached
  rw [warning_halts ((not_gateUp_iff _).2 ⟨hread, hwrite⟩)]
  generalize readCut w (holdBegun s) = t at hgate hread hdata hqueue husage hattached hframe ⊢
  have hrest := holdHalt_subsides t
  have hport : (holdHalt t).port c = t.port c := hrest.frame (.port c) (by simp [Part.reached])
  exact ⟨holdHalt_halted hqueue husage hattached, hrest.guards.gate.trans hgate, hrest.guards.read.trans hread,
    by rw [hport]; exact hdata,
    (hbegun.mono (by cases c <;> decide)).trans
      ((hframe.mono (by cases c <;> decide)).trans (hrest.frame.mono (by cases c <;> decide)))⟩

/-- Settles O47: the entry by the gate that is up, the effects of a spin-down within the hold, and the end. -/
theorem supplyHoldBeginsAndEnds : Obligations.SupplyHoldBeginsAndEnds := by
  intro w s
  refine ⟨fun hw hh hf => ?entry, fun i hs ha hi => ?fall, fun hw hi hd hs => ?clear⟩
  case entry =>
    obtain ⟨⟨hst, haccepted, hclear, howed⟩, hwarning, hrecord⟩ := supplyWarning_entered w s
    refine ⟨enterHold w (warned s), exec_supplyWarning hw hh hf, hst, haccepted, hclear, hwarning, howed, hrecord,
      fun hg hr hwr => ?idle, fun hg hup => ?waits, fun c g hp hr => ?read⟩
    case idle =>
      obtain ⟨⟨hqueue, husage, hwait, hdown⟩, hmap, hframe⟩ := supplyWarning_idle w hg hr hwr
      exact ⟨hqueue, husage, hmap, hdown, hwait, hframe⟩
    case waits =>
      rw [warning_waits (readActive_eq_false hg) ((gateUp_iff s).2 hup)]
      exact ⟨rfl, (holdBegun_touches s).trans ((touches_watch _ _).mono (by decide))⟩
    case read =>
      obtain ⟨⟨hqueue, husage, hwait, hdown⟩, hgate, hread, hdata, hframe⟩ := supplyWarning_read hp hr w
      exact ⟨hgate, hread, hwait, hdata, hqueue, husage, hdown, hframe⟩
  case fall =>
    obtain ⟨t, hexec, hgone, hev⟩ := exec_fallInHold hs ha hi
    have htwatch := hgone.watch
    have hmap : t.map = s.map := hgone.frame .map (by decide)
    have hview : ∀ c, t.view c = s.view c := fun c => hgone.frame (.view c) (by simp)
    have hprior : priorLabel t = priorLabel s := priorLabel_eq (by rw [hmap]) (by rw [htwatch])
    have hflag : (severed w t).ev.record (.sole .rotationLost) = t.ev.record (.sole .rotationLost) :=
      (severed_steady w t).flags _ (by decide)
    obtain ⟨uwatch, hstopped, hdown, uev⟩ := fallInHold_effect w t
    rw [hprior, htwatch] at uwatch
    rw [htwatch] at hdown
    rw [← uev, hev] at hflag
    simp only [Down, hview] at hdown
    have hstopped' := hstopped.before hgone
    generalize fallInHold w t = u at hexec uwatch hstopped' hdown hflag
    obtain ⟨umap, uprotR, uprotF, uqueue, uusage, ujudged, ulist, uframe⟩ := hstopped'
    exact ⟨u, hexec, uwatch, by rw [umap], by rw [umap], by rw [umap], by rw [umap], uprotR, uprotF, uqueue, uusage,
      ujudged, ulist, hdown, hflag, uframe.mono (by decide)⟩
  case clear =>
    have hcleared : TouchesOnly [.watch] s (cleared s) := touches_watch s _
    refine ⟨_, exec_supplyClear hw hi hd hs, ?_⟩
    cases ha : s.watch.readyAccepted with
    | true =>
      rw [leaveHold_ready (s := cleared s) ha, enterCalibrating_watch]
      refine ⟨rfl, fun _ => ⟨rfl, fun hhalted => ?_,
        (hcleared.mono (by decide)).trans (enterCalibrating_touches _)⟩, nofun⟩
      rw [enterCalibrating, askCalibration_pos (s := setWatchState .calibrating (cleared s)) hhalted]
      exact ⟨rfl, rfl⟩
    | false =>
      rw [leaveHold_unready (s := cleared s) ha]
      exact ⟨rfl, nofun, fun _ => ⟨rfl, hcleared.trans (setWatchState_touches _ _)⟩⟩

end Sys2Proof.Machine
end
